-- ==== Sys2Proof/Word.lean ====
section
/-! DEFINITION. The byte, and the table of a fixed number of like things. -/

namespace Sys2Proof

/-- One byte as the client ports, the peer links and the EEPROM carry it. -/
abbrev Byte := BitVec 8

/-- A fixed number `n` of like things (ports, taps, windows, circuit entries), in index order. -/
structure Table (α : Type) (n : Nat) where
  cells : List α
  size : cells.length = n
  deriving DecidableEq, Repr

namespace Table

variable {α β : Type} {n : Nat}

/-- The thing at an index. -/
def get (t : Table α n) (i : Fin n) : α :=
  t.cells[i.val]'(by rw [t.size]; exact i.isLt)

/-- The table with another thing at one index. -/
def set (t : Table α n) (i : Fin n) (a : α) : Table α n :=
  ⟨t.cells.set i.val a, by rw [List.length_set, t.size]⟩

/-- The table with the thing at one index changed. -/
def modify (t : Table α n) (i : Fin n) (f : α → α) : Table α n := t.set i (f (t.get i))

/-- The table that holds the same thing everywhere. -/
def all (n : Nat) (a : α) : Table α n := ⟨List.replicate n a, List.length_replicate⟩

/-- The table given by a function of the index. -/
def tabulate (f : Fin n → α) : Table α n := ⟨(List.finRange n).map f, by simp⟩

/-- Every thing changed by a function that may look at its index. -/
def mapIdx (t : Table α n) (f : Fin n → α → β) : Table β n := tabulate fun i => f i (t.get i)

/-- The lowest index whose place is free. -/
def firstFree (t : Table (Option α) n) : Option (Fin n) :=
  (List.finRange n).find? fun i => (t.get i).isNone

/-- The indices, in ascending order, whose things meet a test. -/
def indices (t : Table α n) (p : α → Bool) : List (Fin n) :=
  (List.finRange n).filter fun i => p (t.get i)

end Table

end Sys2Proof
end

