-- ==== Sys2Proof/Syntax.lean ====
section
/-! DEFINITION. The commands of spec/opcode_table.json and the operands they carry. -/

namespace Sys2Proof

/-- R86, R186: the kind of a run. -/
inductive Kind where
  | verify
  | baseline
  deriving DecidableEq, Repr

/-- R186: the class of an outcome (BREAK is `breakage`, PARTIAL is `partialPath`). -/
inductive RunClass where
  | verified
  | degraded
  | partialPath
  | breakage
  | misroute
  | incomplete
  | deferred
  deriving DecidableEq, Repr

/-- R142, R186: what an outcome does to a circuit's service state (NONE is `noVerdict`). -/
inductive Verdict where
  | noVerdict
  | pass
  | fail
  deriving DecidableEq, Repr

/-- R106, R186: why a run was refused. -/
inductive Reason where
  | unknown
  | mismatch
  | held
  | busy
  | silent
  | linkDown
  deriving DecidableEq, Repr

/-- R139 to R141: the place of a fault, with what the site carries. The tap of STRAY is the byte a frame brings, which
R187 does not judge (log 20). -/
inductive FaultSite where
  | add
  | span
  | node
  | stray (tap : Nat)
  | peer (reason : Reason)
  deriving DecidableEq, Repr

/-- R34, R186: a listen slot's finding. -/
inductive Sighting where
  | notSeen
  | garbled
  | seen
  deriving DecidableEq, Repr

/-- R26, R186: the light class of a tap. -/
inductive LightClass where
  | dark
  | under
  | over
  | normal
  deriving DecidableEq, Repr

/-- R133, R134, R186: the verdict a node gives its own hop. -/
inductive HopVerdict where
  | inMissing
  | misrouted
  | outMissing
  | throughOk
  | throughDegraded
  | throughNoBaseline
  deriving DecidableEq, Repr

/-- R103: a run's identity, the head's node id with the head's run number. -/
structure RunId where
  node : Nat
  number : Nat
  deriving DecidableEq, Repr

/-- R132: what one node found for one run. Levels are tenths of a dBm. The stray tap is the byte a frame brings, which
R187 does not judge (log 20). -/
structure HopResult where
  hop : Nat
  node : Nat
  inSight : Sighting
  inLevel : Option Int
  inClass : LightClass
  outSight : Sighting
  outLevel : Option Int
  stray : Option Nat
  verdict : HopVerdict
  deriving DecidableEq, Repr

/-- R106, R186: the head's classification of a run as an OUTCOME carries it. -/
structure RunOutcome where
  cid : Nat
  run : RunId
  kind : Kind
  cls : RunClass
  verdict : Verdict
  faultHop : Option Nat
  site : Option FaultSite
  deriving DecidableEq, Repr

/-- R106, R186: the eight peer messages other than HELLO. -/
inductive Message where
  | announce (cid : Nat) (run : RunId) (kind : Kind) (hop n dwell : Nat)
  | armed (cid : Nat) (run : RunId)
  | stop (cid : Nat) (run : RunId)
  | report (cid : Nat) (run : RunId) (truncated : Bool) (hops : List HopResult)
  | refuse (cid : Nat) (run : RunId) (hop : Nat) (reason : Reason)
  | cancel (cid : Nat) (run : RunId)
  | outcome (o : RunOutcome)
  | request (cid : Nat) (kind : Kind)
  deriving DecidableEq, Repr

/-- One constructor for each row of spec/opcode_table.json, in the table's order.
A client command carries its port and the body of its request frame as it was shifted in (R191);
a peer message carries its link and its fields; an expiry names what it is the expiry of. -/
inductive Instr where
  | spiTransaction (p : Fin 4) (clocked : Nat)
  | undecodedRequest (p : Fin 4) (bytes : List Byte)
  | status (p : Fin 4) (body : List Byte)
  | seek (p : Fin 4) (body : List Byte)
  | read (p : Fin 4) (body : List Byte)
  | readChanges (p : Fin 4) (body : List Byte)
  | ackAttention (p : Fin 4) (body : List Byte)
  | setNotify (p : Fin 4) (body : List Byte)
  | clearCheck (p : Fin 4) (body : List Byte)
  | portReset (p : Fin 4) (body : List Byte)
  | registerCircuit (p : Fin 4) (body : List Byte)
  | editCircuit (p : Fin 4) (body : List Byte)
  | deleteCircuit (p : Fin 4) (body : List Byte)
  | requestPermit (p : Fin 4) (body : List Byte)
  | confirm (p : Fin 4) (body : List Byte)
  | verify (p : Fin 4) (body : List Byte)
  | baseline (p : Fin 4) (body : List Byte)
  | commitBaseline (p : Fin 4) (body : List Byte)
  | discardBaseline (p : Fin 4) (body : List Byte)
  | clearBaseline (p : Fin 4) (body : List Byte)
  | scheduleWindow (p : Fin 4) (body : List Byte)
  | extendWindow (p : Fin 4) (body : List Byte)
  | closeWindow (p : Fin 4) (body : List Byte)
  | withdrawWindow (p : Fin 4) (body : List Byte)
  | holdClock (p : Fin 4) (body : List Byte)
  | releaseClock (p : Fin 4) (body : List Byte)
  | setClock (p : Fin 4) (body : List Byte)
  | alignClock (p : Fin 4) (body : List Byte)
  | setTap (p : Fin 4) (body : List Byte)
  | configure (p : Fin 4) (body : List Byte)
  | storeConfig (p : Fin 4) (body : List Byte)
  | storeEnd (failedStage : Option (Fin 5))
  | setNodeId (p : Fin 4) (body : List Byte)
  | restart (p : Fin 4) (body : List Byte)
  | powerOnReset
  | rstAsserted
  | rstReleased
  | loadEnd (bytes : Option (List Byte))
  | clockTick
  | ppsEdge (line : Fin 8) (high : Bool)
  | ppsLost
  | holdLimit
  | requestTimer (i : Fin 256)
  | tapReading (readings : Table Int 16)
  | codeFrame (tap : Fin 16) (channel : Nat) (word : BitVec 30) (level : Int)
  | freezeInChange (line : Fin 8) (high : Bool)
  | eligibleAfter (i : Fin 256) (kind : Kind)
  | preemptTime (i : Fin 256) (kind : Kind)
  | announce (g : Fin 4) (cid : Nat) (run : RunId) (kind : Kind) (hop n dwell : Nat)
  | armed (g : Fin 4) (cid : Nat) (run : RunId)
  | armedWait (slot : Fin 32)
  | dwell (slot : Fin 32)
  | stop (g : Fin 4) (cid : Nat) (run : RunId)
  | stopWait (slot : Fin 32)
  | report (g : Fin 4) (cid : Nat) (run : RunId) (truncated : Bool) (hops : List HopResult)
  | reportWait (slot : Fin 32)
  | refuse (g : Fin 4) (cid : Nat) (run : RunId) (hop : Nat) (reason : Reason)
  | outcome (g : Fin 4) (o : RunOutcome)
  | outcomeWait (slot : Fin 32)
  | cancel (g : Fin 4) (cid : Nat) (run : RunId)
  | request (g : Fin 4) (cid : Nat) (kind : Kind)
  | hello (g : Fin 4) (node degree : Nat)
  | frameDiscarded (g : Fin 4) (bytes : List Byte)
  | silenceDeadline (g : Fin 4)
  | helloPeriod (g : Fin 4)
  | linkTransmit (g : Fin 4)
  | notifyPulseEnd (p : Fin 4)
  deriving DecidableEq, Repr

end Sys2Proof
end

