-- ==== Sys2Proof/Decode.lean ====
section
/-! DEFINITION. Commands spelled by a word of the opcode table's bits. -/

namespace Sys2Proof

/-- No row of spec/opcode_table.json gives bits, so no word spells a command.
Client frames and peer frames are read from bytes in Machine/Bytes.lean. -/
def decodeTableWord (_nbits _w : Nat) : Option Instr := none

end Sys2Proof
end

