-- ==== Sys2Proof/Config.lean ====
section
/-! DEFINITION. What the manual leaves open: free values, each an opaque constant. -/

namespace Sys2Proof

/-- R161: the byte shifted out after the end of a response, at the given draw. Not stated (log 9). -/
opaque Config.fillerByte : Nat → Byte

/-- R101, R131, R159: whether a part of a unit left over counts as a whole one, for a unit and a time left
in milliseconds. Not stated (log 10). -/
opaque Config.roundsUp : Nat → Nat → Bool

/-- R131, R184: what stands for the arrival number of a run that has no grant record. Not stated (log 11). -/
opaque Config.absentArrival : Nat

/-- R79: the fault reason, by its code, of a FAIL whose class the rule's table does not list. Not stated (log 13). -/
opaque Config.otherFaultReason : RunClass → Fin 4

/-- R119, R140: whether a list of the given length on a path of the given length, short and not marked truncated,
is judged as truncated at its end. Not stated (log 14). -/
opaque Config.shortListIsTruncated : Nat → Nat → Bool

/-- R146: the truncated flag kept with hop 0 alone when a refusal or a link loss ends a run in COLLECTING.
Not stated (log 15). -/
opaque Config.refusedListTruncated : Bool

/-- R127, R128: the rank that orders the runs of one lost link, by time-base instant and run slot.
Not stated (log 16). -/
opaque Config.lossRank : Nat → Fin 32 → Nat

/-- R168: whether SEEK tells a TENANT that names CHECK NOT-PERMITTED before it judges the index.
Not stated (log 17). -/
opaque Config.seekJudgesRightFirst : Bool

/-- R139: the tap named by the site STRAY for a hop result that says MISROUTED and names no stray tap.
Not stated (log 18). -/
opaque Config.unnamedStray : Fin 16

end Sys2Proof
end

