-- ==== Sys2Proof/Machine/State.lean ====
section
/-! DEFINITION. Everything the spec gives the part, as plain data, and the part right after power-on reset. -/

namespace Sys2Proof.Machine

/-! ### Client ports (09) -/

/-- R160: the role of a port. -/
inductive Role where
  | line
  | tenant
  | off
  deriving DecidableEq, Repr

/-- R172: how a port's notify signal follows its attention. -/
inductive NotifyMode where
  | level
  | pulse
  deriving DecidableEq, Repr

/-- R160, R168: the tables a cursor can name, in the order of R168. -/
inductive TableName where
  | circuits
  | windows
  | runs
  | queue
  | taps
  | links
  | lines
  | status
  | check
  deriving DecidableEq, Repr

/-- R160, R171: the attention classes, bits 0 to 6. -/
inductive AttClass where
  | circuit
  | outcome
  | edit
  | window
  | plant
  | clock
  | check
  deriving DecidableEq, Repr

/-- R160: a port's notify defaults in the image. -/
structure NotifyDefault where
  mode : NotifyMode
  mask : BitVec 7
  deriving DecidableEq, Repr

/-- R160: the context of one client port. The role is in `Settings` and busy follows from `Device.storing`. -/
structure PortCtx where
  table : TableName
  index : Nat
  response : Option (List Byte)
  dropped : Bool
  attention : BitVec 7
  changed : List (Fin 256)
  mode : NotifyMode
  mask : BitVec 7
  cleared : Bool
  /-- The instant at which the running notify pulse ends; absent while none runs. -/
  pulse : Option Nat
  /-- The bytes shifted out in the port's last transaction. -/
  shifted : List Byte
  deriving DecidableEq, Repr

/-! ### The wall clock (03) -/

/-- R182: a wall time. -/
structure WallTime where
  day : Nat
  minute : Nat
  second : Nat
  deriving DecidableEq, Repr

/-- R43: where the ticks come from. -/
inductive TickSource where
  | internal
  | pps
  deriving DecidableEq, Repr

/-- R43: the wall clock, with the hold limit (R46), the PPS supervision and the divider (R45). -/
structure Clock where
  time : WallTime
  unset : Bool
  held : Bool
  pendingTick : Bool
  slip : Bool
  source : TickSource
  ppsLost : Bool
  holdDeadline : Option Nat
  ppsDeadline : Option Nat
  dividerDue : Nat
  deriving DecidableEq, Repr

/-! ### Circuits (01, 04, 07) -/

/-- R3: the owner of a record. -/
inductive Owner where
  | port (p : Fin 4)
  | line
  deriving DecidableEq, Repr

/-- R4: this node's role on a circuit. -/
inductive NodeRole where
  | head
  | transit
  | tail
  deriving DecidableEq, Repr

/-- R5: where a circuit enters or leaves the node. -/
inductive Place where
  | tap (t : Fin 16)
  | degree (g : Fin 4)
  deriving DecidableEq, Repr

/-- R7: the incomplete policy. -/
inductive Policy where
  | fail
  | escalate
  | accept
  deriving DecidableEq, Repr

/-- R7: the safe behaviour. -/
inductive Safe where
  | retain
  | withdrawAuto
  | withdrawConfirm
  deriving DecidableEq, Repr

/-- R67: why a record is FAULTED. -/
inductive FaultReason where
  | breakage
  | misroute
  | incomplete
  | headSilent
  deriving DecidableEq, Repr

/-- R67: the service states; the fault reason is present in FAULTED alone. -/
inductive Service where
  | unproven
  | inService
  | held
  | due
  | awaitConfirm
  | faulted (reason : FaultReason)
  deriving DecidableEq, Repr

/-- R15, R184: the description fields an edit can name, in the order of R15's list. -/
inductive Field where
  | role
  | hop
  | length
  | channel
  | ingress
  | egress
  | dwell
  | tolerance
  | policy
  | safe
  deriving DecidableEq, Repr

/-- R15: one change of an edit, with its value as given (FFFFh is the default marking of a soft field). -/
structure Change where
  field : Field
  value : Nat
  deriving DecidableEq, Repr

/-- R19: an edit held back. -/
structure StagedEdit where
  transparent : Bool
  changes : List Change
  deriving DecidableEq, Repr

/-- R19, R21: the fate of the last staged edit. -/
inductive EditResult where
  | none
  | applied
  | droppedConflict
  | droppedPath
  deriving DecidableEq, Repr

/-- Section 1.1: the description fields of a record, six path fields and four soft fields. -/
structure Desc where
  role : NodeRole
  k : Nat
  n : Nat
  channel : Nat
  ingress : Place
  egress : Place
  dwell : Nat
  tolerance : Nat
  policy : Policy
  safe : Safe
  deriving DecidableEq, Repr

/-- R13: the run a record has attached. -/
structure AttachedRun where
  id : RunId
  kind : Kind
  deriving DecidableEq, Repr

/-- R135: a committed baseline. -/
structure Baseline where
  inLevel : Int
  outLevel : Int
  time : WallTime
  deriving DecidableEq, Repr

/-- R135: a candidate baseline. -/
structure Candidate where
  inLevel : Int
  outLevel : Int
  time : WallTime
  capturedAt : Nat
  run : RunId
  deriving DecidableEq, Repr

/-- R145: the last outcome of a record. -/
structure LastOutcome where
  run : RunId
  kind : Kind
  cls : RunClass
  verdict : Verdict
  faultHop : Option Nat
  site : Option FaultSite
  time : WallTime
  deriving DecidableEq, Repr

/-- R146: hop results in hop order, with the truncated flag. -/
structure HopList where
  hops : List HopResult
  truncated : Bool
  deriving DecidableEq, Repr

/-- Section 1.1: one circuit record. The permit is derived (R68). -/
structure Circuit where
  cid : Nat
  owner : Owner
  desc : Desc
  service : Service
  permitRequest : Bool
  retained : Bool
  run : Option AttachedRun
  attempts : Nat
  /-- R74, R75: the request timer's deadline while it runs. -/
  requestDeadline : Option Nat
  committed : Option Baseline
  candidate : Option Candidate
  lastOutcome : Option LastOutcome
  hopList : Option HopList
  staged : Option StagedEdit
  lastEdit : EditResult
  deriving DecidableEq, Repr

/-! ### Windows (03) -/

/-- R52: the states of a window; an EMPTY slot holds no record. -/
inductive WindowState where
  | scheduled
  | baselining
  | opened
  | verifying
  | overdue
  | done
  deriving DecidableEq, Repr

/-- R52: a day and a minute. -/
structure DayMinute where
  day : Nat
  minute : Nat
  deriving DecidableEq, Repr

/-- R59: baselining-since, on both clocks. -/
structure Since where
  time : WallTime
  instant : Nat
  deriving DecidableEq, Repr

/-- R52: one window record. Sets are lists without repeats. -/
structure Window where
  state : WindowState
  creator : Fin 4
  openAt : DayMinute
  closeAt : DayMinute
  lead : Nat
  verifyLimit : Nat
  degrees : List (Fin 4)
  taps : List (Fin 16)
  closing : Bool
  baseliningSince : Option Since
  verifyingSince : Option WallTime
  baselineSet : List (Fin 256)
  members : List (Fin 256)
  unresolved : List (Fin 256)
  deriving DecidableEq, Repr

/-! ### The Verification Queue and the Arbiter (05) -/

/-- R86: the class of an entry. -/
inductive QClass where
  | urgent
  | high
  | normal
  | low
  deriving DecidableEq, Repr

/-- R86: one queue entry. -/
structure QueueEntry where
  circuit : Fin 256
  kind : Kind
  cls : QClass
  arrival : Nat
  classTime : Nat
  eligibleAfter : Option Nat
  deriving DecidableEq, Repr

/-- R96: one grant record. -/
structure GrantRecord where
  slot : Fin 32
  injector : Fin 4
  circuit : Fin 256
  kind : Kind
  cls : QClass
  arrival : Nat
  classTime : Nat
  grantedAt : Nat
  deriving DecidableEq, Repr

/-! ### The Run Engine (06) -/

/-- R104: the phases of a run, in the order R182 codes them. -/
inductive Phase where
  | announcing
  | injecting
  | collecting
  | arming
  | listening
  | reporting
  | awaitingOutcome
  deriving DecidableEq, Repr

/-- R102: whether a run holds listen slots. -/
inductive Listen where
  | opened
  | closed
  | none
  deriving DecidableEq, Repr

/-- R102: one run record. Its injector is found in the Injector Array. -/
structure Run where
  id : RunId
  circuit : Fin 256
  kind : Kind
  role : NodeRole
  k : Nat
  n : Nat
  phase : Phase
  up : Option (Fin 4)
  down : Option (Fin 4)
  dwell : Nat
  deadline : Nat
  listen : Listen
  own : Option HopResult
  hopList : HopList
  deriving DecidableEq, Repr

/-! ### Taps and injectors (02) -/

/-- R24: what a tap watches. -/
inductive TapFn where
  | unused
  | add
  | drop
  | lineIn
  | lineOut
  deriving DecidableEq, Repr

/-- R24: the settings of a tap; limits and trim in tenths. -/
structure TapSettings where
  fn : TapFn
  degree : Option (Fin 4)
  low : Int
  high : Int
  trim : Int
  deriving DecidableEq, Repr

/-- R29: what a listen slot listens for. -/
inductive Purpose where
  | ingress
  | expectedEgress
  | watch
  deriving DecidableEq, Repr

/-- R30, R33: an occupied listen slot, with the sum and the number of the levels noted. -/
structure ListenSlot where
  run : Fin 32
  cid : Nat
  channel : Nat
  purpose : Purpose
  good : Nat
  bad : Nat
  levelSum : Int
  levelCount : Nat
  deriving DecidableEq, Repr

/-- R24, R25: one tap. Its level and light class follow from the reading and the settings. -/
structure Tap where
  settings : TapSettings
  reading : Option Int
  slots : Table (Option ListenSlot) 8
  deriving DecidableEq, Repr

/-- R38, R188: one injector; a DRIVING one holds the code frame it formed when it entered DRIVING. -/
inductive Injector where
  | free
  | granted (run : Fin 32)
  | driving (run : Fin 32) (tap : Fin 16) (cid channel : Nat) (frame : BitVec 30)
  deriving DecidableEq, Repr

/-! ### Peer links (08) -/

/-- R147: the state of a link. -/
inductive LinkState where
  | disabled
  | down
  | probing
  | up
  | miswired
  deriving DecidableEq, Repr

/-- R147: one link. The expected neighbour is in `Settings`. -/
structure Link where
  state : LinkState
  seenId : Option Nat
  seenDegree : Option (Fin 4)
  agreeing : Nat
  silence : Option Nat
  queue : List Message
  helloDue : Nat
  /-- The bytes of the last frame whose transmission began. -/
  sent : List Byte
  deriving DecidableEq, Repr

/-! ### Checks and the configuration (09, 10) -/

/-- R173, R192: the cause of a check, with its detail. -/
inductive CheckCause where
  | escalatedOutcome (i : Fin 256) (cid : Nat) (run : RunId) (faultHop : Option Nat) (reason : Option Reason)
  | neighbourMismatch (g : Fin 4) (node degree accepting : Nat)
  | storeFailed (stage : Fin 5)
  deriving DecidableEq, Repr

/-- R173: the check report. -/
structure CheckReport where
  cause : CheckCause
  time : WallTime
  count : Nat
  deriving DecidableEq, Repr

/-- R176: the functions of the Line Matrix. -/
inductive LineFn where
  | none
  | ppsIn
  | freezeIn
  | notify (p : Fin 4)
  | windowActive
  | checkActive
  | injecting
  deriving DecidableEq, Repr

/-- R177: a degree in the image. -/
structure DegreeSetting where
  enabled : Bool
  expected : Nat
  deriving DecidableEq, Repr

/-- R177: the seven timings, in seconds. -/
structure Timings where
  armBase : Nat
  reportBase : Nat
  outcomeWait : Nat
  requestInterval : Nat
  preemptTime : Nat
  promotionAge : Nat
  deferDelay : Nat
  deriving DecidableEq, Repr

/-- R177: the items of an image other than the tap settings. -/
structure Settings where
  nodeId : Nat
  roles : Table Role 4
  notify : Table NotifyDefault 4
  lines : Table LineFn 8
  degrees : Table DegreeSetting 4
  timings : Timings
  deriving DecidableEq, Repr

/-- R177: a configuration image. -/
structure Image where
  settings : Settings
  taps : Table TapSettings 16
  deriving DecidableEq, Repr

/-- R180: the image in the EEPROM, as far as the part knows it. -/
inductive Eeprom where
  /-- Written from outside; the load delivers it. -/
  | fromOutside
  /-- Stored by this part, every read-back matched. -/
  | stored (bytes : List Byte)
  /-- A store failed or was cut short: the image is invalid. -/
  | spoiled
  deriving DecidableEq, Repr

/-- R180: a store in progress. -/
structure Store where
  port : Fin 4
  bytes : List Byte
  deriving DecidableEq, Repr

/-! ### The whole part -/

/-- Everything but the queue of waiting commands. -/
structure Device where
  now : Nat
  draws : Nat
  rst : Bool
  lineIn : Table Bool 8
  eeprom : Eeprom
  running : Option Settings
  pendingNode : Option Nat
  loading : Bool
  storing : Option Store
  ports : Table PortCtx 4
  check : Option CheckReport
  clock : Clock
  windows : Table (Option Window) 16
  circuits : Table (Option Circuit) 256
  queue : List QueueEntry
  nextArrival : Nat
  grants : List GrantRecord
  runs : Table (Option Run) 32
  nextRun : Nat
  taps : Table Tap 16
  injectors : Table Injector 4
  links : Table Link 4
  deriving DecidableEq, Repr

/-- The part and the commands that wait for it, first in, first out. -/
structure State where
  pending : List Instr
  dev : Device
  deriving DecidableEq, Repr

/-- The spec names no condition under which the part stops, so nothing raises a fault.
Safe: there is none to raise. -/
inductive Fault : Type
  deriving DecidableEq, Repr

/-- Why a step has no meaning. -/
inductive Refusal where
  /-- Raised by an arm of exec whose command has no meaning yet; no arm raises it now. Safe. -/
  | notModelled (mnemonic : String)
  deriving DecidableEq, Repr

/-! ### Reset values -/

/-- R160: a port context after reset. -/
def PortCtx.reset : PortCtx where
  table := .status
  index := 0
  response := none
  dropped := false
  attention := 0
  changed := []
  mode := .level
  mask := 127
  cleared := false
  pulse := none
  shifted := []

/-- R43: the clock after power-on reset (the divider's first tick is a choice, log 27). -/
def Clock.powerOn : Clock where
  time := ⟨0, 0, 0⟩
  unset := true
  held := false
  pendingTick := false
  slip := false
  source := .internal
  ppsLost := false
  holdDeadline := none
  ppsDeadline := none
  dividerDue := 1000

/-- R24: the unconfigured settings of a tap. -/
def TapSettings.unconfigured : TapSettings where
  fn := .unused
  degree := none
  low := -300
  high := 0
  trim := 0

/-- R24, R25, R30: a tap after reset. -/
def Tap.reset : Tap where
  settings := .unconfigured
  reading := none
  slots := .all 8 none

/-- R147: a link after reset. -/
def Link.reset : Link where
  state := .disabled
  seenId := none
  seenDegree := none
  agreeing := 0
  silence := none
  queue := []
  helloDue := 0
  sent := []

/-- The part in the power-on reset state, before the load begins (R178 and each chapter's reset values). -/
def Device.powerOn : Device where
  now := 0
  draws := 0
  rst := false
  lineIn := .all 8 false
  eeprom := .fromOutside
  running := none
  pendingNode := none
  loading := false
  storing := none
  ports := .all 4 .reset
  check := none
  clock := .powerOn
  windows := .all 16 none
  circuits := .all 256 none
  queue := []
  nextArrival := 1
  grants := []
  runs := .all 32 none
  nextRun := 1
  taps := .all 16 .reset
  injectors := .all 4 .free
  links := .all 4 .reset

/-- The part right after power-on reset: the reset has ended and the load has begun (R178, log 1). -/
def State.reset : State where
  pending := []
  dev := { Device.powerOn with loading := true }

end Sys2Proof.Machine
end

