-- ==== Sys2Proof/Machine/Bytes.lean ====
section
/-! DEFINITION. Bytes: byte order, the checks over bytes, and the codes of the enumerations (R182 to R190). -/

namespace Sys2Proof.Machine

/-! ### Byte order (R182) -/

/-- R182: the low `n` bytes of a number, most significant first. -/
def be : Nat → Nat → List Byte
  | 0, _ => []
  | n + 1, v => BitVec.ofNat 8 (v / 256 ^ n) :: be n v

/-- R182: the number that bytes spell, most significant first. -/
def ofBe (bs : List Byte) : Nat := bs.foldl (fun acc b => acc * 256 + b.toNat) 0

/-- R182: a signed number in two's complement, most significant byte first. -/
def beInt (n : Nat) (v : Int) : List Byte := be n (v % (256 ^ n : Nat)).toNat

/-- R182: the signed number of `n` bytes whose unsigned value is `v`. -/
def signed (n v : Nat) : Int := if 2 * v < 256 ^ n then v else (v : Int) - (256 ^ n : Nat)

/-- One byte of a body, 0 past its end (lengths are judged before fields are read). -/
def byteAt (bs : List Byte) (at' : Nat) : Nat := (bs.getD at' 0).toNat

/-- The number held by `len` bytes from a place on. -/
def fieldAt (bs : List Byte) (at' len : Nat) : Nat := ofBe ((bs.drop at').take len)

/-- A flag byte: 01h for set (R184). -/
def flagByte (b : Bool) : List Byte := [if b then 1 else 0]

/-- The members, in ascending order, of a set given as bits (R191). -/
def bitsToList (n : Nat) (bits : Nat) : List (Fin n) := (List.finRange n).filter fun i => bits.testBit i.val

/-- The bits of a set. -/
def listToBits {n : Nat} (l : List (Fin n)) : Nat :=
  (List.finRange n).foldl (fun acc i => if i ∈ l then acc + 2 ^ i.val else acc) 0

/-! ### Checks (R184, R187, R188, R190) -/

/-- R184: one bit of the CRC-8 with polynomial x⁸ + x² + x + 1. -/
def crc8Bit (c : BitVec 8) : BitVec 8 := (c <<< 1) ^^^ (if c.msb then 0x07 else 0)

/-- R184: the CRC-8 of a client frame. -/
def crc8 (bs : List Byte) : Byte := bs.foldl (fun c b => crc8Bit^[8] (c ^^^ b)) 0

/-- R187: one bit of the CRC-16 with polynomial x¹⁶ + x¹² + x⁵ + 1. -/
def crc16Bit (c : BitVec 16) : BitVec 16 := (c <<< 1) ^^^ (if c.msb then 0x1021 else 0)

/-- R187: the CRC-16 of a peer frame. -/
def crc16 (bs : List Byte) : BitVec 16 :=
  bs.foldl (fun c b => crc16Bit^[8] (c ^^^ ((b.setWidth 16 : BitVec 16) <<< 8))) 0xFFFF

/-- R190: one bit of the CRC-32 with polynomial 04C11DB7h, reflected. -/
def crc32Bit (c : BitVec 32) : BitVec 32 := (c >>> 1) ^^^ (if c.getLsbD 0 then 0xEDB88320 else 0)

/-- R190: the CRC-32 of the configuration image. -/
def crc32 (bs : List Byte) : BitVec 32 :=
  (bs.foldl (fun c b => crc32Bit^[8] (c ^^^ (b.setWidth 32 : BitVec 32))) 0xFFFFFFFF) ^^^ 0xFFFFFFFF

/-- R188: the 6-bit check of a code frame, the remainder by x⁶ + x + 1, taken bit by bit from the most
significant bit of the circuit id. -/
def codeCheck (cid : BitVec 24) : BitVec 6 :=
  (List.range 24).foldl
    (fun c j => (c <<< 1) ^^^ (if c.msb != cid.getLsbD (23 - j) then 0x03 else 0)) 0

/-- R188: the circuit id of a received code frame. -/
def codeFrameId (w : BitVec 30) : BitVec 24 := (w >>> 6).setWidth 24

/-- R188: a code frame is good when its check is the one computed over its 24 bits. -/
def codeFrameGood (w : BitVec 30) : Bool := codeCheck (codeFrameId w) == w.setWidth 6

/-- R188: the code frame of a circuit id, as the injector forms it. -/
def codeFrame (cid : Nat) : BitVec 30 :=
  (BitVec.ofNat 24 cid) ++ codeCheck (BitVec.ofNat 24 cid)

/-! ### Codes of the enumerations (R182, R186) -/

/-- R182: the code of a value is its position in the table that defines it. -/
def codeIn {α : Type} [BEq α] (l : List α) (a : α) : Nat := l.idxOf a

def kindTable : List Kind := [.verify, .baseline]
def runClassTable : List RunClass :=
  [.verified, .degraded, .partialPath, .breakage, .misroute, .incomplete, .deferred]
def verdictTable : List Verdict := [.noVerdict, .pass, .fail]
def reasonTable : List Reason := [.unknown, .mismatch, .held, .busy, .silent, .linkDown]
def sightingTable : List Sighting := [.notSeen, .garbled, .seen]
def lightClassTable : List LightClass := [.dark, .under, .over, .normal]
def hopVerdictTable : List HopVerdict :=
  [.inMissing, .misrouted, .outMissing, .throughOk, .throughDegraded, .throughNoBaseline]
def nodeRoleTable : List NodeRole := [.head, .transit, .tail]
def policyTable : List Policy := [.fail, .escalate, .accept]
def safeTable : List Safe := [.retain, .withdrawAuto, .withdrawConfirm]
def faultReasonTable : List FaultReason := [.breakage, .misroute, .incomplete, .headSilent]
def fieldTable : List Field :=
  [.role, .hop, .length, .channel, .ingress, .egress, .dwell, .tolerance, .policy, .safe]
def editResultTable : List EditResult := [.none, .applied, .droppedConflict, .droppedPath]
def phaseTable : List Phase :=
  [.announcing, .injecting, .collecting, .arming, .listening, .reporting, .awaitingOutcome]
def listenTable : List Listen := [.opened, .closed, .none]
def tapFnTable : List TapFn := [.unused, .add, .drop, .lineIn, .lineOut]
def purposeTable : List Purpose := [.ingress, .expectedEgress, .watch]
def linkStateTable : List LinkState := [.disabled, .down, .probing, .up, .miswired]
def qClassTable : List QClass := [.urgent, .high, .normal, .low]
def tableNameTable : List TableName :=
  [.circuits, .windows, .runs, .queue, .taps, .links, .lines, .status, .check]
def roleTable : List Role := [.line, .tenant, .off]
def notifyModeTable : List NotifyMode := [.level, .pulse]
def attClassTable : List AttClass := [.circuit, .outcome, .edit, .window, .plant, .clock, .check]
def lineFnTable : List LineFn :=
  [.none, .ppsIn, .freezeIn, .notify 0, .notify 1, .notify 2, .notify 3, .windowActive, .checkActive, .injecting]

/-- R52, R182: the window states, EMPTY as the absent record. -/
def windowStateTable : List (Option WindowState) :=
  [none, some .scheduled, some .baselining, some .opened, some .verifying, some .overdue, some .done]

/-- R182: one byte with a value's code. -/
def codeByte {α : Type} [BEq α] (l : List α) (a : α) : List Byte := [BitVec.ofNat 8 (codeIn l a)]

/-- R184: a single optional field of one byte, FFh when absent. -/
def optByte (o : Option Nat) : List Byte := [BitVec.ofNat 8 (o.getD 255)]

/-- R184: an optional level, 8000h when absent. -/
def levelBytes (o : Option Int) : List Byte := match o with
  | none => be 2 0x8000
  | some v => beInt 2 v

/-- R184: a level read from two bytes. -/
def levelOf (v : Nat) : Option Int := if v = 0x8000 then none else some (signed 2 v)

/-- R139 to R141, R186: the code of a fault site, FFh when absent. -/
def siteCode : Option FaultSite → Nat
  | none => 255
  | some .add => 0
  | some .span => 1
  | some .node => 2
  | some (.stray _) => 3
  | some (.peer _) => 4

/-- R185: the site detail is the stray tap for STRAY, the reason for PEER, FFh otherwise. -/
def siteDetail : Option FaultSite → Nat
  | some (.stray t) => t
  | some (.peer r) => codeIn reasonTable r
  | _ => 255

/-- R186, R187: a fault site from its code and detail. Only the reason of PEER is a code that R187 judges; a tap number
is taken as it comes, and where the site carries nothing the detail is ignored (log 20). -/
def siteOf (code detail : Nat) : Option (Option FaultSite) := match code with
  | 255 => some none
  | 0 => some (some .add)
  | 1 => some (some .span)
  | 2 => some (some .node)
  | 3 => some (some (.stray detail))
  | 4 => reasonTable[detail]?.map fun r => some (.peer r)
  | _ => none

/-- R182: a run id in four bytes. -/
def runIdBytes (r : RunId) : List Byte := be 2 r.node ++ be 2 r.number

/-- R182: a run id read from a place of a body. -/
def runIdAt (bs : List Byte) (at' : Nat) : RunId := ⟨fieldAt bs at' 2, fieldAt bs (at' + 2) 2⟩

/-- R182: a wall time in five bytes. -/
def wallBytes (t : WallTime) : List Byte := be 2 t.day ++ be 2 t.minute ++ be 1 t.second

/-- R185: a hop result in twelve bytes. -/
def hopBytes (h : HopResult) : List Byte :=
  be 1 h.hop ++ be 2 h.node ++ codeByte sightingTable h.inSight ++ levelBytes h.inLevel ++
    codeByte lightClassTable h.inClass ++ codeByte sightingTable h.outSight ++ levelBytes h.outLevel ++
    optByte h.stray ++ codeByte hopVerdictTable h.verdict

/-- R185, R187: a hop result read from a place of a body; a stray tap byte is taken as it comes (log 20). -/
def hopAt (bs : List Byte) (at' : Nat) : Option HopResult := do
  let inSight ← sightingTable[byteAt bs (at' + 3)]?
  let inClass ← lightClassTable[byteAt bs (at' + 6)]?
  let outSight ← sightingTable[byteAt bs (at' + 7)]?
  let verdict ← hopVerdictTable[byteAt bs (at' + 11)]?
  let strayByte := byteAt bs (at' + 10)
  if 16 ≤ byteAt bs at' then none else
    some { hop := byteAt bs at', node := fieldAt bs (at' + 1) 2, inSight, inLevel := levelOf (fieldAt bs (at' + 4) 2)
           inClass, outSight, outLevel := levelOf (fieldAt bs (at' + 8) 2)
           stray := if strayByte = 255 then none else some strayByte, verdict }

/-- R185: the flags byte of a hop list, the count in bits 0 to 4 and the truncated flag in bit 7. -/
def hopListFlags (l : HopList) : List Byte := [BitVec.ofNat 8 (l.hops.length + if l.truncated then 128 else 0)]

/-- R185: a hop list, flags and results. -/
def hopListBytes (l : HopList) : List Byte := hopListFlags l ++ l.hops.flatMap hopBytes

/-! ### Peer frames (R186, R187) -/

/-- What a valid frame of one of the nine types carries. -/
inductive PeerFrame where
  | hello (node degree : Nat)
  | message (m : Message)
  deriving DecidableEq, Repr

/-- R186: type and body of a frame. -/
def frameParts : PeerFrame → Nat × List Byte
  | .hello node degree => (0x01, be 2 node ++ be 1 degree)
  | .message (.announce cid run kind hop n dwell) =>
    (0x02, be 3 cid ++ runIdBytes run ++ codeByte kindTable kind ++ be 1 hop ++ be 1 n ++ be 1 dwell)
  | .message (.armed cid run) => (0x03, be 3 cid ++ runIdBytes run)
  | .message (.stop cid run) => (0x04, be 3 cid ++ runIdBytes run)
  | .message (.report cid run truncated hops) => (0x05, be 3 cid ++ runIdBytes run ++ hopListBytes ⟨hops, truncated⟩)
  | .message (.refuse cid run hop reason) =>
    (0x06, be 3 cid ++ runIdBytes run ++ be 1 hop ++ codeByte reasonTable reason)
  | .message (.cancel cid run) => (0x07, be 3 cid ++ runIdBytes run)
  | .message (.outcome o) =>
    (0x08, be 3 o.cid ++ runIdBytes o.run ++ codeByte kindTable o.kind ++ codeByte runClassTable o.cls ++
      codeByte verdictTable o.verdict ++ optByte o.faultHop ++ be 1 (siteCode o.site) ++ be 1 (siteDetail o.site))
  | .message (.request cid kind) => (0x09, be 3 cid ++ codeByte kindTable kind)

/-- R187: one byte after the start delimiter, escaped. -/
def escapeByte (b : Byte) : List Byte := if b = 0x7E ∨ b = 0x7D then [0x7D, b ^^^ 0x20] else [b]

/-- R186, R187: the bytes of a frame as they go on the link. -/
def wireBytes (f : PeerFrame) : List Byte :=
  let (typ, body) := frameParts f
  let inner := be 1 typ ++ be 1 body.length ++ body
  0x7E :: (inner ++ be 2 (crc16 inner).toNat).flatMap escapeByte

/-- R187: the bytes after a start delimiter with the escapes removed, up to the next delimiter or a bad escape;
`esc` says that the byte before was 7Dh. -/
def unescape (esc : Bool) : List Byte → List Byte
  | [] => []
  | b :: rest =>
    if b = 0x7E then []
    else if esc then
      if b ^^^ 0x20 = 0x7E ∨ b ^^^ 0x20 = 0x7D then (b ^^^ 0x20) :: unescape false rest else []
    else if b = 0x7D then unescape true rest
    else b :: unescape false rest

/-- R148, R187: the type and body of a valid frame, from the bytes that followed its start delimiter;
none where the frame is cut off, too long or fails its CRC. -/
def validFrame (bytes : List Byte) : Option (Nat × List Byte) :=
  let bs := unescape false bytes
  let len := byteAt bs 1
  if bs.length < 2 then none
  else if 200 < len ∨ bs.length < len + 4 then none
  else if (crc16 (bs.take (len + 2))).toNat ≠ fieldAt bs (len + 2) 2 then none
  else some (byteAt bs 0, (bs.drop 2).take len)

/-- R148, R187: what follows each start delimiter among the bytes, which is where the receiver starts again. -/
def framesIn : List Byte → List (List Byte)
  | [] => []
  | b :: rest => if b = 0x7E then rest :: framesIn rest else framesIn rest

/-- R185: the hop results of a REPORT body, from a place on. -/
def hopsAt (bs : List Byte) (at' : Nat) : Nat → Option (List HopResult)
  | 0 => some []
  | n + 1 => do
    let h ← hopAt bs at'
    let rest ← hopsAt bs (at' + 12) n
    some (h :: rest)

/-- R187: the fault hop of an OUTCOME, FFh when absent. -/
def faultHopOf (b : Nat) : Option (Option Nat) :=
  if b < 16 then some (some b) else if b = 255 then some none else none

/-- R187: a frame's content by its type, none where the type is unknown or the body is not well formed for it. Bits 5 and
6 of the flags byte of a REPORT, of which the spec says nothing, are ignored (log 37). -/
def parseFrame (typ : Nat) (body : List Byte) : Option PeerFrame :=
  let cid := fieldAt body 0 3
  let run := runIdAt body 3
  let msg : Option Message := match typ with
    | 0x02 => if body.length ≠ 11 then none else
      kindTable[byteAt body 7]?.map fun k => .announce cid run k (byteAt body 8) (byteAt body 9) (byteAt body 10)
    | 0x03 => if body.length ≠ 7 then none else some (.armed cid run)
    | 0x04 => if body.length ≠ 7 then none else some (.stop cid run)
    | 0x05 =>
      let flags := byteAt body 7
      if body.length ≠ 8 + 12 * (flags % 32) then none else
      (hopsAt body 8 (flags % 32)).map fun hops => .report cid run (flags.testBit 7) hops
    | 0x06 => if body.length ≠ 9 then none else
      reasonTable[byteAt body 8]?.map fun r => .refuse cid run (byteAt body 7) r
    | 0x07 => if body.length ≠ 7 then none else some (.cancel cid run)
    | 0x08 => if body.length ≠ 13 then none else do
      let kind ← kindTable[byteAt body 7]?
      let cls ← runClassTable[byteAt body 8]?
      let verdict ← verdictTable[byteAt body 9]?
      let faultHop ← faultHopOf (byteAt body 10)
      let site ← siteOf (byteAt body 11) (byteAt body 12)
      some (.outcome ⟨cid, run, kind, cls, verdict, faultHop, site⟩)
    | 0x09 => if body.length ≠ 4 then none else kindTable[byteAt body 3]?.map fun k => .request cid k
    | _ => none
  if typ = 0x01 then
    if body.length = 3 ∧ byteAt body 2 < 4 then some (.hello (fieldAt body 0 2) (byteAt body 2)) else none
  else match msg with
    | some m => if cid = 0 then none else
      match m with
      | .announce _ _ _ hop n _ => if hop < 16 ∧ 2 ≤ n ∧ n ≤ 16 then some (.message m) else none
      | .report _ _ _ hops => if 1 ≤ hops.length ∧ hops.length ≤ 16 then some (.message m) else none
      | .refuse _ _ hop _ => if hop < 16 then some (.message m) else none
      | _ => some (.message m)
    | none => none

/-! ### Client frames (R183, R184) -/

/-- R183, R184: a response frame. -/
def responseFrame (code rc : Nat) (body : List Byte) : List Byte :=
  let inner := be 1 code ++ be 1 rc ++ be 2 body.length ++ body
  inner ++ [crc8 inner]

/-- R162: what a whole request frame holds, or the code byte of a damaged one. -/
inductive RequestFrame where
  | damaged (code : Nat)
  | whole (code : Nat) (body : List Byte)
  deriving DecidableEq, Repr

/-- R162, R183: the request frame in the bytes shifted in; bytes after the CRC byte are ignored. -/
def requestFrame (bytes : List Byte) : RequestFrame :=
  let code := byteAt bytes 0
  let len := byteAt bytes 1
  if bytes.length < 2 ∨ 250 < len ∨ bytes.length < len + 3 then .damaged code
  else if crc8 (bytes.take (len + 2)) ≠ bytes.getD (len + 2) 0 then .damaged code
  else .whole code ((bytes.drop 2).take len)

/-! ### The configuration image (R177, R189, R190) -/

/-- R189: the magic word of a valid image. -/
def magicWord : Nat := 0xA73D1E64

/-- R177, R189: a table of items, none where one is invalid. -/
def readTable {α : Type} (n : Nat) (dflt : α) (f : Fin n → Option α) : Option (Table α n) :=
  if (List.finRange n).all fun i => (f i).isSome then some (.tabulate fun i => (f i).getD dflt) else none

/-- R27, R177: settings of a tap that SET-TAP accepts, but for what other taps hold. -/
def TapSettings.ok (t : TapSettings) : Bool :=
  ((t.fn = .lineIn || t.fn = .lineOut) == t.degree.isSome) &&
    (-600 ≤ t.low && t.low ≤ t.high && t.high ≤ 250) && (-8 ≤ t.trim && t.trim ≤ 7)

/-- R189, R191: tap settings in seven bytes from a place on (function, degree, limits, trim). -/
def tapSettingsAt (bs : List Byte) (at' : Nat) : Option TapSettings := do
  let fn ← tapFnTable[byteAt bs at']?
  let d := byteAt bs (at' + 1)
  let degree ← if h : d < 4 then some (some (⟨d, h⟩ : Fin 4)) else if d = 255 then some none else none
  let t : TapSettings :=
    { fn, degree, low := signed 2 (fieldAt bs (at' + 2) 2), high := signed 2 (fieldAt bs (at' + 4) 2)
      trim := signed 1 (byteAt bs (at' + 6)) }
  if t.ok then some t else none

/-- R189: the bytes of tap settings. -/
def tapSettingsBytes (t : TapSettings) : List Byte :=
  codeByte tapFnTable t.fn ++ optByte (t.degree.map (·.val)) ++ beInt 2 t.low ++ beInt 2 t.high ++ beInt 1 t.trim

/-- R24, R177: no two taps are LINE-IN for one degree, and no two LINE-OUT. -/
def lineTapsUnique (taps : Table TapSettings 16) : Bool :=
  (List.finRange 16).all fun i => (List.finRange 16).all fun j =>
    i == j || !((taps.get i).fn == .lineIn || (taps.get i).fn == .lineOut) ||
      !((taps.get i).fn == (taps.get j).fn && (taps.get i).degree == (taps.get j).degree)

/-- A number in a range. -/
def inRange (lo v hi : Nat) : Bool := lo ≤ v && v ≤ hi

/-- R177: the ranges of the seven timings. -/
def Timings.ok (t : Timings) : Bool :=
  inRange 1 t.armBase 10 && inRange 1 t.reportBase 10 && inRange 5 t.outcomeWait 120 &&
    inRange 30 t.requestInterval 600 && inRange 1 t.preemptTime 30 && inRange 30 t.promotionAge 1800 &&
    inRange 10 t.deferDelay 600

/-- R177, R189, R190: the image in 164 bytes, none where it is invalid. -/
def parseImage (bs : List Byte) : Option Image :=
  if bs.length ≠ 164 then none
  else if (crc32 (bs.take 160)).toNat ≠ ofBe (bs.drop 160).reverse then none
  else if fieldAt bs 0 4 ≠ magicWord then none
  else do
    let roles ← readTable 4 .off fun p => roleTable[byteAt bs (6 + p)]?
    let notify ← readTable 4 ⟨.level, 127⟩ fun p =>
      if byteAt bs (11 + 2 * p) < 128 then
        notifyModeTable[byteAt bs (10 + 2 * p)]?.map fun m => ⟨m, BitVec.ofNat 7 (byteAt bs (11 + 2 * p))⟩
      else none
    let taps ← readTable 16 .unconfigured fun t => tapSettingsAt bs (18 + 7 * t)
    let lines ← readTable 8 .none fun l => lineFnTable[byteAt bs (130 + l)]?
    let degrees ← readTable 4 ⟨false, 0⟩ fun g =>
      if byteAt bs (138 + 3 * g) < 2 ∧ fieldAt bs (139 + 3 * g) 2 ≤ 65534 then
        some ⟨byteAt bs (138 + 3 * g) = 1, fieldAt bs (139 + 3 * g) 2⟩ else none
    let nodeId := fieldAt bs 4 2
    let timings : Timings :=
      { armBase := byteAt bs 150, reportBase := byteAt bs 151, outcomeWait := byteAt bs 152
        requestInterval := fieldAt bs 153 2, preemptTime := byteAt bs 155
        promotionAge := fieldAt bs 156 2, deferDelay := fieldAt bs 158 2 }
    if inRange 1 nodeId 65534 && timings.ok && roles.cells.any (· == .line) && lineTapsUnique taps then
      some { settings := { nodeId, roles, notify, lines, degrees, timings }, taps }
    else none

/-- R189: the items of an image before its CRC-32. -/
def imageItems (im : Image) : List Byte :=
  be 4 magicWord ++ be 2 im.settings.nodeId ++ im.settings.roles.cells.flatMap (codeByte roleTable) ++
    im.settings.notify.cells.flatMap (fun x => codeByte notifyModeTable x.mode ++ be 1 x.mask.toNat) ++
    im.taps.cells.flatMap tapSettingsBytes ++ im.settings.lines.cells.flatMap (codeByte lineFnTable) ++
    im.settings.degrees.cells.flatMap (fun x => flagByte x.enabled ++ be 2 x.expected) ++
    be 1 im.settings.timings.armBase ++ be 1 im.settings.timings.reportBase ++
    be 1 im.settings.timings.outcomeWait ++ be 2 im.settings.timings.requestInterval ++
    be 1 im.settings.timings.preemptTime ++ be 2 im.settings.timings.promotionAge ++
    be 2 im.settings.timings.deferDelay

/-- R189, R190: the 164 bytes of an image, the CRC-32 low byte first. -/
def imageBytes (im : Image) : List Byte :=
  imageItems im ++ (be 4 (crc32 (imageItems im)).toNat).reverse

end Sys2Proof.Machine
end

