-- ==== Sys2Proof/Machine/Flags.lean ====
section
/-! DEFINITION. What follows from the state without being stored: the configuration in force, the permit, the light
class, the output functions and the status byte. -/

namespace Sys2Proof.Machine

/-! ### The configuration in force (R160, R178, R179) -/

/-- R178: CONFIGURED. -/
def Device.configured (d : Device) : Bool := d.running.isSome

/-- R160: the role of a port, absent while the part is UNCONFIGURED. -/
def Device.role (d : Device) (p : Fin 4) : Option Role := d.running.map fun g => g.roles.get p

/-- A port whose role is LINE. -/
def Device.isLine (d : Device) (p : Fin 4) : Bool := d.role p == some .line

/-- R165: a port that takes part in transactions. -/
def Device.served (d : Device) (p : Fin 4) : Bool := d.role p != some .off

/-- R105, R177: the default timings; read only while no image is in force (log 21). -/
def Timings.default : Timings where
  armBase := 2
  reportBase := 2
  outcomeWait := 20
  requestInterval := 120
  preemptTime := 5
  promotionAge := 300
  deferDelay := 60

/-- R179: the timings in force, in seconds. -/
def Device.timings (d : Device) : Timings := (d.running.map (·.timings)).getD .default

/-- R178: the running node id, 0 while it is absent. -/
def Device.nodeId (d : Device) : Nat := (d.running.map (·.nodeId)).getD 0

/-- R147: the expected neighbour of a degree's link, 0 where there is none (log 21). -/
def Device.expected (d : Device) (g : Fin 4) : Nat := (d.running.map fun s => (s.degrees.get g).expected).getD 0

/-- R176: the function of a line; every line is an ignored input while no image is in force. -/
def Device.lineFn (d : Device) (l : Fin 8) : LineFn := (d.running.map fun s => s.lines.get l).getD .none

/-- R163: a port is busy while its STORE-CONFIG runs. -/
def Device.busy (d : Device) (p : Fin 4) : Bool := d.storing.any fun s => s.port == p

/-! ### Attention (R160, R171, R172) -/

/-- R182: the bit of an attention class. -/
def AttClass.bit (c : AttClass) : BitVec 7 := 1 <<< codeIn attClassTable c

/-- An attention set holds a class. -/
def hasAtt (a : BitVec 7) (c : AttClass) : Bool := a &&& c.bit != 0

/-- R172: the notify signal of a port: in LEVEL mode while an unmasked class is set, in PULSE mode while a pulse
runs. -/
def PortCtx.notify (x : PortCtx) : Bool :=
  match x.mode with
  | .level => x.attention &&& ~~~x.mask != 0
  | .pulse => x.pulse.isSome

/-! ### Output and input functions (R42, R63, R173, R176) -/

/-- R63: WINDOW-ACTIVE is asserted while at least one window is OPEN. -/
def Device.windowActive (d : Device) : Bool := d.windows.cells.any fun w => w.any fun x => x.state == .opened

/-- An injector that is DRIVING. -/
def Injector.isDriving : Injector → Bool
  | .driving _ _ _ _ _ => true
  | _ => false

/-- R42: INJECTING is asserted while at least one injector is DRIVING. -/
def Device.injecting (d : Device) : Bool := d.injectors.cells.any Injector.isDriving

/-- R173: CHECK-ACTIVE is asserted while the check report is present. -/
def Device.checkActive (d : Device) : Bool := d.check.isSome

/-- R176: an input function is asserted while at least one line assigned to it is high. -/
def Device.inputAsserted (d : Device) (f : LineFn) : Bool :=
  (List.finRange 8).any fun l => d.lineFn l == f && d.lineIn.get l

/-- R45, R176: PPS-IN as the Line Matrix combines it. -/
def Device.ppsIn (d : Device) : Bool := d.inputAsserted .ppsIn

/-- R45: some line is assigned PPS-IN. -/
def Device.ppsAssigned (d : Device) : Bool := (List.finRange 8).any fun l => d.lineFn l == .ppsIn

/-- R93, R176: FREEZE-IN as the Line Matrix combines it. -/
def Device.freezeIn (d : Device) : Bool := d.inputAsserted .freezeIn

/-- R176: the level of a line, driven for an output function and taken from outside for an input. -/
def Device.lineLevel (d : Device) (l : Fin 8) : Bool :=
  match d.lineFn l with
  | .none => d.lineIn.get l
  | .ppsIn => d.lineIn.get l
  | .freezeIn => d.lineIn.get l
  | .notify p => d.served p && (d.ports.get p).notify
  | .windowActive => d.windowActive
  | .checkActive => d.checkActive
  | .injecting => d.injecting

/-- R166, R183: the status byte of a port. -/
def Device.statusByte (d : Device) (p : Fin 4) : Byte :=
  let x := d.ports.get p
  BitVec.ofNat 8 <|
    (if d.busy p then 1 else 0) + (if x.response.isSome then 2 else 0) + (if x.attention != 0 then 4 else 0) +
      (if d.isLine p && d.check.isSome && !x.cleared then 8 else 0) + (if x.dropped then 16 else 0) +
      (if d.configured then 0 else 32)

/-! ### Taps (R25, R26) -/

/-- R25: the level of a tap, the trim added to the reading and the sum clamped. -/
def Tap.level (t : Tap) : Option Int := t.reading.map fun r => max (-600) (min 250 (r + t.settings.trim))

/-- R26: the light class of a tap, DARK while its level is absent. -/
def Tap.lightClass (t : Tap) : LightClass :=
  match t.level with
  | none => .dark
  | some v =>
    if v < -400 then .dark else if v < t.settings.low then .under
    else if t.settings.high < v then .over else .normal

/-- R29: a tap that watches a way out of the node. -/
def TapFn.isEgress (f : TapFn) : Bool := f == .lineOut || f == .drop

/-! ### Circuit records (R16, R68) -/

/-- R68: the permit: GRANTED is true. -/
def Circuit.permit (c : Circuit) : Bool :=
  match c.service with
  | .inService => c.permitRequest
  | .held => c.retained
  | .due => c.retained
  | .unproven => false
  | .awaitConfirm => false
  | .faulted _ => false

/-- R16: UNPROVEN, IN-SERVICE or FAULTED. -/
def Service.settled : Service → Bool
  | .unproven => true
  | .inService => true
  | .faulted _ => true
  | .held => false
  | .due => false
  | .awaitConfirm => false

/-- R16: a quiescent record. -/
def Circuit.quiescent (c : Circuit) : Bool := c.service.settled && c.run.isNone

/-! ### Time (R44, R51, R192) -/

/-- R44: the number by which the calendar compares times. -/
def WallTime.number (t : WallTime) : Nat := t.day * 1440 + t.minute

/-- R44: the number by which the calendar compares a window's times. -/
def DayMinute.number (t : DayMinute) : Nat := t.day * 1440 + t.minute

/-- R101, R131, R159: a time left, in units; how a part of a unit counts is open (log 10). -/
def units (unit ms : Nat) : Nat :=
  ms / unit + if ms % unit != 0 && Config.roundsUp unit ms then 1 else 0

/-- R192: a time-base instant in 100 ms units, wrapping after FFFFFFFFh. -/
def instantUnits (ms : Nat) : Nat := ms / 100 % 2 ^ 32

end Sys2Proof.Machine
end

