-- ==== Sys2Proof/Machine/Ops.lean ====
section
/-! DEFINITION. Operations every block shares: raising attention and checks, answering a request, handing a message to
a link, the time base, and the sets of circuit indices. -/

namespace Sys2Proof.Machine

/-! ### Running a command -/

/-- A command that acts on the part and leaves the queue alone. -/
def State.on (s : State) (f : Device → Device) : Host.Outcome State Fault Refusal :=
  .next { s with dev := f s.dev }

/-- R178: while the RST line is asserted the part stays in the reset state and the command finds nothing to act on. -/
def unlessReset (f : Device → Device) (d : Device) : Device := if d.rst then d else f d

/-- R51: taking an expiry finds the time base at the deadline at least (log 3). -/
def Device.reach (d : Device) (deadline : Nat) : Device := { d with now := max d.now deadline }

/-- An expiry that is due from a stored deadline: without one there is nothing to expire. -/
def Device.onExpiry (d : Device) (deadline : Option Nat) (f : Device → Device) : Device :=
  match deadline with
  | none => d
  | some t => f (d.reach t)

/-! ### Sets of circuit indices (R52, R160) -/

/-- A set with one more index, kept in ascending order without repeats. -/
def insertIdx {n : Nat} (i : Fin n) : List (Fin n) → List (Fin n)
  | [] => [i]
  | j :: rest => if i < j then i :: j :: rest else if i = j then j :: rest else j :: insertIdx i rest

/-- A set without an index. -/
def removeIdx {n : Nat} (i : Fin n) (l : List (Fin n)) : List (Fin n) := l.filter fun j => j != i

/-! ### Attention (R69, R171, R172) -/

/-- R171, R172: a class raised on one port; a class that goes from clear to set unmasked starts a 5 ms pulse in PULSE
mode where none runs. -/
def PortCtx.raise (now : Nat) (c : AttClass) (x : PortCtx) : PortCtx :=
  { x with
    attention := x.attention ||| c.bit
    pulse :=
      if x.mode == .pulse && !hasAtt x.attention c && !hasAtt x.mask c && x.pulse.isNone then some (now + 5)
      else x.pulse }

/-- R171: a class raised on the ports that a test picks. -/
def Device.raiseWhere (d : Device) (sel : Fin 4 → Bool) (c : AttClass) : Device :=
  { d with ports := d.ports.mapIdx fun p x => if sel p then x.raise d.now c else x }

/-- R171: "to the LINE ports". -/
def Device.raiseLine (d : Device) (c : AttClass) : Device := d.raiseWhere d.isLine c

/-- R3, R165: the ports an owner stands for; nothing is raised on an OFF or unassigned port. -/
def Device.ownedBy (d : Device) (o : Owner) (p : Fin 4) : Bool :=
  match o with
  | .port q => p == q && (d.isLine p || d.role p == some .tenant)
  | .line => d.isLine p

/-- R171: "to the owner". -/
def Device.raiseOwner (d : Device) (o : Owner) (c : AttClass) : Device := d.raiseWhere (d.ownedBy o) c

/-- R69, R170: the index put in the changed set of the owner's ports. -/
def Device.noteChanged (d : Device) (o : Owner) (i : Fin 256) : Device :=
  { d with ports := d.ports.mapIdx fun p x =>
      if d.ownedBy o p then { x with changed := insertIdx i x.changed } else x }

/-- R69: CIRCUIT attention to the owner, with the index in the changed sets. -/
def Device.attendCircuit (d : Device) (o : Owner) (i : Fin 256) : Device :=
  (d.raiseOwner o .circuit).noteChanged o i

/-! ### Checks (R173) -/

/-- R173: a check raised: a new report, or one more on the count of the report present. -/
def Device.raiseCheck (d : Device) (cause : CheckCause) : Device :=
  match d.check with
  | some r => { d with check := some { r with count := min 255 (r.count + 1) } }
  | none =>
    let d := { d with
      check := some ⟨cause, d.clock.time, 0⟩
      ports := d.ports.mapIdx fun p x => if d.isLine p then { x with cleared := false } else x }
    d.raiseLine .check

/-! ### Answering a request (R161, R162) -/

/-- One port's context changed. -/
def Device.port (d : Device) (p : Fin 4) (f : PortCtx → PortCtx) : Device := { d with ports := d.ports.modify p f }

/-- R162: the response becomes pending. -/
def Device.respond (d : Device) (p : Fin 4) (code rc : Nat) (body : List Byte) : Device :=
  d.port p fun x => { x with response := some (responseFrame code rc body) }

/-! R164: the response codes. -/

def rcOk : Nat := 0x00
def rcStaged : Nat := 0x01
def rcBadCommand : Nat := 0x10
def rcBadArgument : Nat := 0x11
def rcNotPermitted : Nat := 0x12
def rcNotFound : Nat := 0x13
def rcTableFull : Nat := 0x14
def rcConflict : Nat := 0x15
def rcInUse : Nat := 0x16
def rcWrongState : Nat := 0x17
def rcUnconfigured : Nat := 0x18
def rcClockUnset : Nat := 0x19
def rcFrameError : Nat := 0x1A
def rcStoreFailed : Nat := 0x1B

/-- R164: what the Port Interface needs to know of a command to judge its request. -/
structure CommandRule where
  code : Nat
  /-- The command is allowed from a LINE port alone. -/
  lineOnly : Bool
  /-- The command is taken while the part is UNCONFIGURED. -/
  early : Bool
  deriving DecidableEq, Repr

/-- R164: the code of the answer that refuses a request before its block sees it, in the order of the tests. -/
def Device.gate (d : Device) (r : CommandRule) (p : Fin 4) (lengthOk : Bool) : Option Nat :=
  if !d.configured && !r.early then some rcUnconfigured
  else if d.configured && r.lineOnly && !d.isLine p then some rcNotPermitted
  else if !lengthOk then some rcBadArgument
  else none

/-- R162: a request is dropped, and DROPPED set, while the port is busy or a response is pending. -/
def Device.turnsAway (d : Device) (p : Fin 4) : Bool := d.busy p || (d.ports.get p).response.isSome

/-- R162 to R165: a whole request with a known code at the deassertion of chip-select. -/
def Device.request (d : Device) (r : CommandRule) (p : Fin 4) (lengthOk : Bool) (act : Device → Device) : Device :=
  if d.rst || !d.served p then d
  else if d.turnsAway p then d.port p fun x => { x with dropped := true }
  else match d.gate r p lengthOk with
    | some rc => d.respond p r.code rc []
    | none => act d

/-! ### Handing a message to a link (R156) -/

/-- One link changed. -/
def Device.link (d : Device) (g : Fin 4) (f : Link → Link) : Device := { d with links := d.links.modify g f }

/-- R156: a message handed to a link: queued by an UP link with room, discarded with PLANT attention by an UP link
without, discarded by any other. -/
def Device.send (d : Device) (g : Fin 4) (m : Message) : Device :=
  if (d.links.get g).state = .up then
    if (d.links.get g).queue.length < 16 then d.link g fun l => { l with queue := l.queue ++ [m] }
    else d.raiseLine .plant
  else d

/-- A message handed to the link of a degree the sender may not have. -/
def Device.sendOpt (d : Device) (g : Option (Fin 4)) (m : Message) : Device :=
  match g with
  | none => d
  | some g => d.send g m

/-! ### Circuit records (R1, R69) -/

/-- The record at an index. -/
def Device.circuit (d : Device) (i : Fin 256) : Option Circuit := d.circuits.get i

/-- The record at an index changed; a free entry stays free. -/
def Device.onCircuit (d : Device) (i : Fin 256) (f : Circuit → Circuit) : Device :=
  { d with circuits := d.circuits.modify i (·.map f) }

/-- The circuit id of the record at an index. -/
def Device.cidOf (d : Device) (i : Fin 256) : Nat := ((d.circuit i).map (·.cid)).getD 0

/-- R1: the index of the record with a circuit id. -/
def Device.findCid (d : Device) (cid : Nat) : Option (Fin 256) :=
  (List.finRange 256).find? fun i => (d.circuit i).any fun c => c.cid == cid

/-- R69: what CIRCUIT attention is raised for. -/
def Circuit.face (c : Circuit) : Service × Bool := (c.service, c.permit)

/-- R69: after an event on a record, CIRCUIT attention if its service state, fault reason or permit is not what it
was before. -/
def Device.attendChange (d : Device) (i : Fin 256) (before : Option Circuit) : Device :=
  match d.circuit i with
  | none => d
  | some c => if before.map Circuit.face = some c.face then d else d.attendCircuit c.owner i

/-- R5: the degree a place names. -/
def Place.degree? : Place → Option (Fin 4)
  | .degree g => some g
  | .tap _ => none

/-- R90, R106: "upstream" for a node with no run, the link of the record's ingress degree. -/
def Circuit.upstream (c : Circuit) : Option (Fin 4) := c.desc.ingress.degree?

end Sys2Proof.Machine
end

