-- ==== Sys2Proof/Machine/TapArray.lean ====
section
/-! DEFINITION. The Tap Array and the Injector Array: which taps a circuit uses, claiming, counting, closing and
releasing listen slots, and driving and freeing injectors. -/

namespace Sys2Proof.Machine

/-! ### The taps of a circuit (R5, R6, R29) -/

/-- The settings of a tap as they stand. -/
def Device.tapSettings (d : Device) (t : Fin 16) : TapSettings := (d.taps.get t).settings

/-- R5: the tap with a line function for a degree. -/
def Device.lineTap (d : Device) (fn : TapFn) (g : Fin 4) : Option (Fin 16) :=
  (List.finRange 16).find? fun t => (d.tapSettings t).fn == fn && (d.tapSettings t).degree == some g

/-- R5: the tap a place names on the way in (LINE-IN) or the way out (LINE-OUT). -/
def Device.placeTap (d : Device) (fn : TapFn) : Place → Option (Fin 16)
  | .tap t => some t
  | .degree g => d.lineTap fn g

/-- R5, R29: the ingress tap. -/
def Device.ingressTap (d : Device) (c : Desc) : Option (Fin 16) := d.placeTap .lineIn c.ingress

/-- R5, R29: the expected egress tap. -/
def Device.egressTap (d : Device) (c : Desc) : Option (Fin 16) := d.placeTap .lineOut c.egress

/-- R6: the record references the tap. -/
def Device.references (d : Device) (c : Desc) (t : Fin 16) : Bool :=
  d.ingressTap c == some t || d.egressTap c == some t

/-- R6: at least one record references the tap. -/
def Device.tapInUse (d : Device) (t : Fin 16) : Bool :=
  d.circuits.cells.any fun c => c.any fun x => d.references x.desc t

/-- R5: the record is well formed against the tap settings as they stand. -/
def Device.wellFormed (d : Device) (c : Desc) : Bool :=
  match c.role, c.ingress, c.egress with
  | .head, .tap t, .degree g => (d.tapSettings t).fn == .add && (d.lineTap .lineOut g).isSome
  | .transit, .degree a, .degree b => a != b && (d.lineTap .lineIn a).isSome && (d.lineTap .lineOut b).isSome
  | .tail, .degree g, .tap t => (d.tapSettings t).fn == .drop && (d.lineTap .lineIn g).isSome
  | _, _, _ => false

/-- R29: the purpose a run of the circuit needs a tap for, if it needs it. -/
def Device.purposeOf (d : Device) (c : Desc) (t : Fin 16) : Option Purpose :=
  if d.ingressTap c = some t then some .ingress
  else if d.egressTap c = some t then some .expectedEgress
  else if (d.tapSettings t).fn.isEgress then some .watch
  else none

/-- R31: every tap that a run of the circuit would need has a free listen slot. -/
def Device.canListen (d : Device) (c : Desc) : Bool :=
  (List.finRange 16).all fun t => (d.purposeOf c t).isNone || (d.taps.get t).slots.firstFree.isSome

/-! ### Listen slots (R32 to R36) -/

/-- R30, R32: a slot as it is claimed, both counts at 0. -/
def ListenSlot.fresh (run : Fin 32) (cid channel : Nat) (purpose : Purpose) : ListenSlot where
  run := run
  cid := cid
  channel := channel
  purpose := purpose
  good := 0
  bad := 0
  levelSum := 0
  levelCount := 0

/-- R32: the run's slots claimed, on each needed tap the lowest-numbered free one. -/
def Device.claim (d : Device) (slot : Fin 32) (cid : Nat) (c : Desc) : Device :=
  { d with taps := d.taps.mapIdx fun t x =>
      match d.purposeOf c t, x.slots.firstFree with
      | some purpose, some j =>
        { x with slots := x.slots.set j (some (ListenSlot.fresh slot cid c.channel purpose)) }
      | _, _ => x }

/-- R36: every slot of the run freed, with no sighting. -/
def Device.releaseSlots (d : Device) (slot : Fin 32) : Device :=
  { d with taps := d.taps.mapIdx fun _ x =>
      { x with slots := x.slots.mapIdx fun _ s => s.filter fun y => y.run != slot } }

/-- R33: a decoded frame offered to one occupied slot of its tap. -/
def ListenSlot.offer (channel : Nat) (w : BitVec 30) (level : Int) (s : ListenSlot) : ListenSlot :=
  if s.channel ≠ channel then s
  else if !codeFrameGood w then { s with bad := min 255 (s.bad + 1) }
  else if (codeFrameId w).toNat = s.cid then
    { s with good := min 255 (s.good + 1), levelSum := s.levelSum + level, levelCount := s.levelCount + 1 }
  else s

/-- R34: the sighting of a slot. -/
def ListenSlot.sighting (s : ListenSlot) : Sighting :=
  if 3 ≤ s.good then .seen else if 1 ≤ s.good ∨ 1 ≤ s.bad then .garbled else .notSeen

/-- R35: the mean of `n` levels, rounded to the nearest tenth with halves away from zero. -/
def meanLevel (sum : Int) (n : Nat) : Int := sum.sign * ((2 * sum.natAbs + n) / (2 * n) : Nat)

/-- R35: the sighting level, for SEEN only, with the trim the tap holds at the close. -/
def ListenSlot.level (s : ListenSlot) (trim : Int) : Option Int :=
  if s.sighting = .seen then some (meanLevel s.levelSum s.levelCount + trim) else none

/-- The run's listen slot on a tap. -/
def Tap.slotOf (t : Tap) (slot : Fin 32) : Option ListenSlot :=
  t.slots.cells.findSome? fun s => s.filter fun y => y.run == slot

/-- R35: one entry of the hand-over. -/
structure HandOver where
  tap : Fin 16
  purpose : Purpose
  sighting : Sighting
  level : Option Int
  deriving DecidableEq, Repr

/-- R35: the hand-over at the close of a run's listen, in ascending tap number. -/
def Device.handOver (d : Device) (slot : Fin 32) : List HandOver :=
  (List.finRange 16).filterMap fun t =>
    ((d.taps.get t).slotOf slot).map fun s =>
      ⟨t, s.purpose, s.sighting, s.level (d.tapSettings t).trim⟩

/-! ### Hop results (R132 to R134) -/

/-- R134: a level differs from the committed one by more than the tolerance. -/
def beyond (tolerance : Nat) (now committed : Int) : Bool := tolerance < (now - committed).natAbs

/-- R134: a hop judged THROUGH, refined against the committed baseline. -/
def throughVerdict (kind : Kind) (c : Circuit) (inLevel outLevel : Int) : HopVerdict :=
  match kind, c.committed with
  | .baseline, _ => .throughNoBaseline
  | .verify, none => .throughNoBaseline
  | .verify, some b =>
    if beyond c.desc.tolerance inLevel b.inLevel || beyond c.desc.tolerance outLevel b.outLevel then .throughDegraded
    else .throughOk

/-- R133: the hop verdict from the three sightings. -/
def hopVerdict (kind : Kind) (c : Circuit) (inSight : Sighting) (stray : Option (Fin 16)) (outSight : Sighting)
    (inLevel outLevel : Option Int) : HopVerdict :=
  if inSight ≠ .seen then .inMissing
  else if stray.isSome then .misrouted
  else if outSight ≠ .seen then .outMissing
  else throughVerdict kind c (inLevel.getD 0) (outLevel.getD 0)

/-- R35: the stray tap, the lowest-numbered WATCH entry whose sighting is SEEN. -/
def strayTap (entries : List HandOver) : Option (Fin 16) :=
  (entries.find? fun e => e.purpose == .watch && e.sighting == .seen).map (·.tap)

/-- R132: the hop result a node forms at the close of its listen. -/
def Device.formHop (d : Device) (slot : Fin 32) (kind : Kind) (c : Circuit) : HopResult :=
  let entries := d.handOver slot
  let ingress := entries.find? fun e => e.purpose == .ingress
  let egress := entries.find? fun e => e.purpose == .expectedEgress
  let stray := strayTap entries
  let inSight := (ingress.map (·.sighting)).getD .notSeen
  let outSight := (egress.map (·.sighting)).getD .notSeen
  let inLevel := ingress.bind (·.level)
  let outLevel := egress.bind (·.level)
  { hop := c.desc.k, node := d.nodeId, inSight, inLevel
    inClass := ((ingress.map fun e => (d.taps.get e.tap).lightClass)).getD .dark
    outSight, outLevel, stray := stray.map (·.val)
    verdict := hopVerdict kind c inSight stray outSight inLevel outLevel }

/-! ### Injectors (R38 to R41) -/

/-- The run slot an injector serves. -/
def Injector.run : Injector → Option (Fin 32)
  | .free => none
  | .granted r => some r
  | .driving r _ _ _ _ => some r

/-- R39: the lowest-numbered FREE injector. -/
def Device.freeInjector (d : Device) : Option (Fin 4) :=
  (List.finRange 4).find? fun j => d.injectors.get j == .free

/-- The injector of a run. -/
def Device.injectorOf (d : Device) (slot : Fin 32) : Option (Fin 4) :=
  (List.finRange 4).find? fun j => (d.injectors.get j).run == some slot

/-- R40, R188: a GRANTED injector of the run starts driving on the circuit's ADD tap the code frame it forms from the
circuit id; any other is left as it is. -/
def Device.drive (d : Device) (slot : Fin 32) (c : Circuit) : Device :=
  { d with injectors := d.injectors.mapIdx fun _ j =>
      match j, c.desc.ingress with
      | .granted r, .tap t => if r = slot then .driving r t c.cid c.desc.channel (codeFrame c.cid) else j
      | _, _ => j }

/-- R41: the run's injector stops and goes FREE. -/
def Device.freeInjectorOf (d : Device) (slot : Fin 32) : Device :=
  { d with injectors := d.injectors.mapIdx fun _ j => if j.run = some slot then .free else j }

end Sys2Proof.Machine
end

