-- ==== Sys2Proof/Machine/QueueOps.lean ====
section
/-! DEFINITION. The Verification Queue: joining, merging, renumbering, removal and grant order (R86 to R101). -/

namespace Sys2Proof.Machine

/-- R86: the rank of a class, the highest first. -/
def QClass.rank : QClass → Nat
  | .urgent => 3
  | .high => 2
  | .normal => 1
  | .low => 0

/-- R88: the higher of two classes. -/
def QClass.max (a b : QClass) : QClass := if a.rank < b.rank then b else a

/-- The entry is of the circuit and kind. -/
def QueueEntry.isFor (i : Fin 256) (k : Kind) (e : QueueEntry) : Bool := e.circuit == i && e.kind == k

/-- R86: the queued entry of a circuit and kind. -/
def Device.queued (d : Device) (i : Fin 256) (k : Kind) : Option QueueEntry := d.queue.find? (·.isFor i k)

/-- R88: a request merged into a queued entry; the class time is set when the class rises. -/
def QueueEntry.merge (now : Nat) (cls : QClass) (e : QueueEntry) : QueueEntry :=
  if e.cls.rank < cls.rank then { e with cls, classTime := now } else e

/-- R88: the queue with a request merged into the entry of its circuit and kind. -/
def Device.mergeInto (d : Device) (i : Fin 256) (k : Kind) (cls : QClass) : Device :=
  { d with queue := d.queue.map fun e => if e.isFor i k then e.merge d.now cls else e }

/-- R87: the arrival numbers in use. -/
def Device.arrivals (d : Device) : List Nat := (d.queue.map (·.arrival) ++ d.grants.map (·.arrival)).dedup

/-- R87: the new number of an old one, by the present order from 1 upwards. -/
def Device.renumbered (d : Device) (a : Nat) : Nat := (d.arrivals.filter (· < a)).length + 1

/-- R87: every entry and grant record renumbered, and the counter set to the next number. -/
def Device.renumber (d : Device) : Device :=
  { d with
    queue := d.queue.map fun e => { e with arrival := d.renumbered e.arrival }
    grants := d.grants.map fun g => { g with arrival := d.renumbered g.arrival }
    nextArrival := d.arrivals.length + 1 }

/-- R87: the counter moved on, with a renumbering when it would pass 4,294,967,295. -/
def Device.moveCounter (d : Device) : Device :=
  if d.nextArrival < 4294967295 then { d with nextArrival := d.nextArrival + 1 } else d.renumber

/-- R88: a new entry with the next arrival number. -/
def Device.newEntry (d : Device) (i : Fin 256) (k : Kind) (cls : QClass) : Device :=
  Device.moveCounter { d with queue := d.queue ++
    [{ circuit := i, kind := k, cls, arrival := d.nextArrival, classTime := d.now, eligibleAfter := none }] }

/-- R86: the record has the role HEAD. -/
def Device.isHead (d : Device) (i : Fin 256) : Bool := (d.circuit i).any fun c => c.desc.role == .head

/-- R86, R88: a request for an entry. -/
def Device.enqueue (d : Device) (i : Fin 256) (k : Kind) (cls : QClass) : Device :=
  if !d.isHead i then d
  else if (d.queued i k).isSome then d.mergeInto i k cls
  else d.newEntry i k cls

/-- R97, R99: a run put back with the values of its grant record, or merged under R88. -/
def Device.putBack (d : Device) (g : GrantRecord) (eligibleAfter : Option Nat) : Device :=
  if !d.isHead g.circuit then d
  else if (d.queued g.circuit g.kind).isSome then d.mergeInto g.circuit g.kind g.cls
  else { d with queue := d.queue ++
    [{ circuit := g.circuit, kind := g.kind, cls := g.cls, arrival := g.arrival, classTime := g.classTime, eligibleAfter }] }

/-- R100: a circuit's entries of both kinds removed. -/
def Device.removeEntries (d : Device) (i : Fin 256) : Device :=
  { d with queue := d.queue.filter fun e => e.circuit != i }

/-- R94: grant order, by class and then by arrival number. -/
def QueueEntry.before (a b : QueueEntry) : Bool :=
  b.cls.rank < a.cls.rank || (a.cls == b.cls && a.arrival < b.arrival)

/-- An entry put into its place in grant order. -/
def insertEntry (e : QueueEntry) : List QueueEntry → List QueueEntry
  | [] => [e]
  | x :: rest => if e.before x then e :: x :: rest else x :: insertEntry e rest

/-- R101: the queue in grant order. -/
def Device.grantOrder (d : Device) : List QueueEntry := d.queue.foldl (fun acc e => insertEntry e acc) []

/-- R96: the grant record of a run slot. -/
def Device.grantOf (d : Device) (slot : Fin 32) : Option GrantRecord := d.grants.find? fun g => g.slot == slot

end Sys2Proof.Machine
end

