-- ==== Sys2Proof/Machine/ServiceOps.lean ====
section
/-! DEFINITION. The service machine's shared operations: attaching, detaching and freeing a run, hold changes, falling
due, the calendar's sets, and the application of edits (R12, R13, R17 to R21, R53, R62 to R65, R70 to R76). -/

namespace Sys2Proof.Machine

/-- Seconds on the time base, in milliseconds. -/
def seconds (s : Nat) : Nat := s * 1000

/-! ### Attaching and detaching (R13, R76) -/

/-- R74, R76: the request timer started, with the attempts so far. -/
def Circuit.startTimer (now interval attempts : Nat) (c : Circuit) : Circuit :=
  { c with attempts, requestDeadline := some (now + interval) }

/-- R71, R76: the request timer stopped and attempts at 0. -/
def Circuit.stopTimer (c : Circuit) : Circuit := { c with attempts := 0, requestDeadline := none }

/-- R74: the request interval, in milliseconds. -/
def Device.requestInterval (d : Device) : Nat := seconds d.timings.requestInterval

/-- R13, R76: a run attached; a non-head record's request timer stops. -/
def Device.attach (d : Device) (i : Fin 256) (run : RunId) (kind : Kind) : Device :=
  d.onCircuit i fun c =>
    let c := { c with run := some ⟨run, kind⟩ }
    if c.desc.role = .head then c else c.stopTimer

/-- R13, R76: the run detached; a non-head record that is DUE starts its request timer at attempts 1. -/
def Device.detach (d : Device) (i : Fin 256) : Device :=
  d.onCircuit i fun c =>
    let c := { c with run := none }
    if c.desc.role ≠ .head ∧ c.service = .due then c.startTimer d.now d.requestInterval 1 else c

/-! ### Runs in the table (R102, R104, R106) -/

/-- One run slot changed; a free slot stays free. -/
def Device.onRun (d : Device) (slot : Fin 32) (f : Run → Run) : Device :=
  { d with runs := d.runs.modify slot (·.map f) }

/-- R106: the run with a run id and a circuit id. -/
def Device.findRun (d : Device) (cid : Nat) (run : RunId) : Option (Fin 32) :=
  (List.finRange 32).find? fun s => (d.runs.get s).any fun r =>
    r.id == run && (d.circuit r.circuit).any fun c => c.cid == cid

/-- R102: the run slot of a circuit. -/
def Device.runOf (d : Device) (i : Fin 256) : Option (Fin 32) :=
  (List.finRange 32).find? fun s => (d.runs.get s).any fun r => r.circuit == i

/-- R36, R104: a run's listen slots given back if its listen is OPEN. -/
def Device.giveUpListen (d : Device) (slot : Fin 32) : Device :=
  match d.runs.get slot with
  | some r => if r.listen = .opened then (d.releaseSlots slot).onRun slot fun r => { r with listen := .none } else d
  | none => d

/-- R104: a run freed: listen slots, injector and grant record given back, the slot free and the run detached. -/
def Device.freeRun (d : Device) (slot : Fin 32) : Device :=
  match d.runs.get slot with
  | none => d
  | some r =>
    let d := (d.giveUpListen slot).freeInjectorOf slot
    Device.detach { d with
      grants := d.grants.filter fun g => g.slot != slot
      runs := d.runs.set slot none } r.circuit

/-- R71, R109, R129, R130: a circuit's run abandoned: CANCEL downstream, REFUSE with the reason upstream from a transit
or tail, and the run freed. -/
def Device.abandonRun (d : Device) (i : Fin 256) (reason : Reason) : Device :=
  match d.runOf i with
  | none => d
  | some slot =>
    match d.runs.get slot with
    | none => d
    | some r =>
      let d := if r.role = .head then d else d.sendOpt r.up (.refuse (d.cidOf i) r.id r.k reason)
      (d.sendOpt r.down (.cancel (d.cidOf i) r.id)).freeRun slot

/-! ### The calendar's sets (R52, R53, R62, R64, R65) -/

/-- R53: the degree is one the record names. -/
def Desc.names (c : Desc) (g : Fin 4) : Bool := c.ingress == .degree g || c.egress == .degree g

/-- R53: the record is in the scope of the window. -/
def Device.inScope (d : Device) (w : Window) (c : Desc) : Bool :=
  w.degrees.any c.names || w.taps.any (d.references c)

/-- R53: the indices of the records in the scope of the window, in ascending order. -/
def Device.scopeOf (d : Device) (w : Window) : List (Fin 256) :=
  d.circuits.indices fun c => c.any fun x => d.inScope w x.desc

/-- R62: a window whose unresolved members may be resolved. -/
def WindowState.awaits (s : WindowState) : Bool := s == .verifying || s == .overdue

/-- R62: a resolution at one window; it goes to DONE when its unresolved set empties. -/
def Window.resolve (i : Fin 256) (w : Window) : Window :=
  if w.state.awaits && w.unresolved.contains i then
    let rest := removeIdx i w.unresolved
    { w with unresolved := rest, state := if rest.isEmpty then .done else w.state }
  else w

/-- R65: a deleted circuit's index removed from the three sets of a window. -/
def Window.forget (i : Fin 256) (w : Window) : Window :=
  { w.resolve i with
    baselineSet := removeIdx i w.baselineSet
    members := removeIdx i w.members
    unresolved := removeIdx i w.unresolved }

/-- The windows changed, with WINDOW attention if a window's state changed (R63). -/
def Device.onWindows (d : Device) (f : Window → Window) : Device :=
  let d' := { d with windows := d.windows.mapIdx fun _ w => w.map f }
  if (List.finRange 16).any fun w => (d'.windows.get w).map (·.state) != (d.windows.get w).map (·.state)
  then d'.raiseLine .window else d'

/-- R62, R81: a counting verdict reported to the calendar. -/
def Device.resolve (d : Device) (i : Fin 256) : Device := d.onWindows (·.resolve i)

/-- R22, R65: a deleted circuit's index removed from every window. -/
def Device.forgetIndex (d : Device) (i : Fin 256) : Device := d.onWindows (·.forget i)

/-- R64: the windows in OPEN that list the circuit. -/
def Device.holdSet (d : Device) (i : Fin 256) : List (Fin 16) :=
  d.windows.indices fun w => w.any fun x => x.state == .opened && x.members.contains i

/-! ### Hold changes and falling due (R70 to R74) -/

/-- R73, R74: a record taken into DUE: a HEAD asks for a HIGH VERIFY entry, any other sends a VERIFY REQUEST upstream
and starts its request timer at attempts 1. -/
def Device.intoDue (d : Device) (i : Fin 256) : Device :=
  match d.circuit i with
  | none => d
  | some c =>
    if c.desc.role = .head then d.enqueue i .verify .high
    else (d.sendOpt c.upstream (.request c.cid .verify)).onCircuit i (·.startTimer d.now d.requestInterval 1)

/-- R71: a hold begins (the attention is raised by `holdChange`). -/
def Device.holdBegins (d : Device) (i : Fin 256) : Device :=
  let d := d.onCircuit i fun c =>
    { c with retained := c.service == .inService && c.desc.safe == .retain && c.permit }
  (d.abandonRun i .held).onCircuit i fun c => { c.stopTimer with service := .held }

/-- R72: a hold ends. -/
def Device.holdEnds (d : Device) (i : Fin 256) : Device :=
  (d.onCircuit i fun c => { c with service := .due }).intoDue i

/-- R64: what the calendar hands to one circuit. -/
structure HoldChange where
  added : List (Fin 16)
  closed : List (Fin 16)
  held : List (Fin 16)
  deriving DecidableEq, Repr

/-- R64, R70: the windows that held the circuit before the hold change. -/
def HoldChange.before (h : HoldChange) : List (Fin 16) :=
  (h.held ++ h.closed).filter fun w => !h.added.contains w

/-- R70: a hold change delivered to a circuit, read as one of the four cases, with the attention of R69. -/
def Device.holdChange (d : Device) (i : Fin 256) (h : HoldChange) : Device :=
  let before := d.circuit i
  match h.before.isEmpty, h.held.isEmpty, h.closed.isEmpty with
  | true, false, _ => (d.holdBegins i).attendChange i before
  | false, true, _ => (d.holdEnds i).attendChange i before
  | true, true, false => ((d.holdBegins i).holdEnds i).attendChange i before
  | false, false, _ => d
  | true, true, true => d

/-- R65: a window with one more member. -/
def Window.addMember (i : Fin 256) (w : Window) : Window := { w with members := insertIdx i w.members }

/-- R12, R65: a record handed to the calendar: it becomes a member of every OPEN window that covers it, and a hold
change is delivered if it was added to any. -/
def Device.calendarTakes (d : Device) (i : Fin 256) : Device :=
  match d.circuit i with
  | none => d
  | some c =>
    let added := d.windows.indices fun w => w.any fun x =>
      x.state == .opened && d.inScope x c.desc && !x.members.contains i
    if added.isEmpty then d
    else
      let d := { d with windows := d.windows.mapIdx fun w (x : Option Window) =>
        if added.contains w then x.map (Window.addMember i) else x }
      d.holdChange i ⟨added, [], d.holdSet i⟩

/-! ### Edits (R4, R7, R9, R15 to R21) -/

/-- R4: role, k and n agree. -/
def Desc.agrees (c : Desc) : Bool :=
  match c.role with
  | .head => c.k == 0
  | .transit => 1 ≤ c.k && c.k + 2 ≤ c.n
  | .tail => c.k + 1 == c.n

/-- R5: the ingress a role calls for, from the number given. -/
def ingressFor (role : NodeRole) (v : Nat) : Option Place :=
  match role with
  | .head => if h : v < 16 then some (.tap ⟨v, h⟩) else none
  | _ => if h : v < 4 then some (.degree ⟨v, h⟩) else none

/-- R5: the egress a role calls for, from the number given. -/
def egressFor (role : NodeRole) (v : Nat) : Option Place :=
  match role with
  | .tail => if h : v < 16 then some (.tap ⟨v, h⟩) else none
  | _ => if h : v < 4 then some (.degree ⟨v, h⟩) else none

/-- A place that is a tap. -/
def Place.isTap : Place → Bool
  | .tap _ => true
  | .degree _ => false

/-- R15: ingress and egress are of the kind the role calls for. -/
def Desc.kindsOk (c : Desc) : Bool :=
  (c.ingress.isTap == (c.role == .head)) && (c.egress.isTap == (c.role == .tail))

/-- R184: the default marking in the value of a change. -/
def defaultMark : Nat := 0xFFFF

/-- R7: a soft field's value, its default for the default marking, none outside its range. -/
def softValue (lo hi dflt v : Nat) : Option Nat :=
  if v = defaultMark then some dflt else if lo ≤ v ∧ v ≤ hi then some v else none

/-- R7: a coded soft field's value. -/
def softCode {α : Type} (l : List α) (dflt : α) (v : Nat) : Option α := if v = defaultMark then some dflt else l[v]?

/-- R7, R15: one change laid over a description; none where its value is out of range. -/
def Desc.change (role : NodeRole) (c : Desc) (ch : Change) : Option Desc :=
  let v := ch.value
  match ch.field with
  | .role => (nodeRoleTable[v]?).map fun r => { c with role := r }
  | .hop => if v ≤ 15 then some { c with k := v } else none
  | .length => if 2 ≤ v ∧ v ≤ 16 then some { c with n := v } else none
  | .channel => if 1 ≤ v ∧ v ≤ 96 then some { c with channel := v } else none
  | .ingress => (ingressFor role v).map fun x => { c with ingress := x }
  | .egress => (egressFor role v).map fun x => { c with egress := x }
  | .dwell => (softValue 1 20 5 v).map fun x => { c with dwell := x }
  | .tolerance => (softValue 1 100 15 v).map fun x => { c with tolerance := x }
  | .policy => (softCode policyTable .fail v).map fun x => { c with policy := x }
  | .safe => (softCode safeTable .withdrawAuto v).map fun x => { c with safe := x }

/-- R15: the role an edit results in. -/
def editRole (c : Desc) (changes : List Change) : Option NodeRole :=
  match changes.find? fun ch => ch.field == .role with
  | none => some c.role
  | some ch => nodeRoleTable[ch.value]?

/-- R15: the description with the changes laid over it; none where a value is out of its range or a place is not of
the kind the resulting role calls for. -/
def Desc.overlay (c : Desc) (changes : List Change) : Option Desc := do
  let role ← editRole c changes
  let c' ← changes.foldlM (fun acc ch => acc.change role ch) c
  if c'.kindsOk then some c' else none

/-- R9: another record than `i` shares the channel with the same egress or the same ingress. -/
def Device.conflicts (d : Device) (i : Option (Fin 256)) (c : Desc) : Bool :=
  (List.finRange 256).any fun j => some j != i && (d.circuit j).any fun x =>
    x.desc.channel == c.channel && (x.desc.egress == c.egress || x.desc.ingress == c.ingress)

/-- R15: a path field, any field but the four soft ones. -/
def Field.isPath : Field → Bool
  | .role => true
  | .hop => true
  | .length => true
  | .channel => true
  | .ingress => true
  | .egress => true
  | .dwell => false
  | .tolerance => false
  | .policy => false
  | .safe => false

/-- R15: an edit that names at least one path field. -/
def isPathEdit (changes : List Change) : Bool := changes.any fun ch => ch.field.isPath

/-- R17: what a path edit does to the record besides its fields. -/
def Circuit.losePath (c : Circuit) : Circuit :=
  { c with committed := none, candidate := none, hopList := none, attempts := 0 }

/-- R16, R17: an edit applied. -/
def Device.applyEdit (d : Device) (i : Fin 256) (desc : Desc) (path : Bool) : Device :=
  let wasHead := d.isHead i
  let d := d.onCircuit i fun c => if path then { c with desc }.losePath else { c with desc }
  if path then
    let d := if wasHead && desc.role != .head then d.removeEntries i else d
    d.calendarTakes i
  else d

/-- R21: the fate of a staged edit. -/
def Device.judgeEdit (d : Device) (i : Fin 256) (c : Desc) (e : StagedEdit) : EditResult × Option Desc :=
  match c.overlay e.changes with
  | none => (.droppedPath, none)
  | some x =>
    if !x.agrees || !d.wellFormed x then (.droppedPath, none)
    else if d.conflicts (some i) x then (.droppedConflict, none)
    else (.applied, some x)

/-- R20, R21: the staged edit of a record that has become quiescent, applied or dropped. -/
def Device.judgeStaged (d : Device) (i : Fin 256) : Device :=
  match d.circuit i with
  | none => d
  | some c =>
    match c.staged with
    | none => d
    | some e =>
      if !c.quiescent then d
      else
        let (result, desc) := d.judgeEdit i c.desc e
        let d := d.onCircuit i fun c => { c with staged := none, lastEdit := result }
        let d := match desc with
          | none => d
          | some x => d.applyEdit i x (isPathEdit e.changes)
        d.raiseOwner c.owner .edit

end Sys2Proof.Machine
end

