-- ==== Sys2Proof/Machine/OutcomeOps.lean ====
section
/-! DEFINITION. Closing a listen, classifying a run, applying a verdict and ending a head run with an outcome
(R77 to R81, R108, R116, R117, R136, R139 to R146). -/

namespace Sys2Proof.Machine

/-! ### Closing a listen (R34, R35, R132, R136) -/

/-- R136: the candidate a BASELINE run's hop writes, if it is THROUGH-NO-BASELINE. -/
def captured (now : Nat) (time : WallTime) (run : RunId) (kind : Kind) (h : HopResult) (old : Option Candidate) :
    Option Candidate :=
  if kind = .baseline ∧ h.verdict = .throughNoBaseline then
    some { inLevel := h.inLevel.getD 0, outLevel := h.outLevel.getD 0, time, capturedAt := now, run }
  else old

/-- R34, R132, R136: a run's listen closed: the hop result formed, the slots freed and a candidate captured. -/
def Device.closeListen (d : Device) (slot : Fin 32) : Device :=
  match d.runs.get slot with
  | none => d
  | some r =>
    match d.circuit r.circuit with
    | none => d
    | some c =>
      let hop := d.formHop slot r.kind c
      let d := (d.releaseSlots slot).onRun slot fun r => { r with listen := .closed, own := some hop }
      d.onCircuit r.circuit fun c =>
        { c with candidate := captured d.now d.clock.time r.id r.kind hop c.candidate }

/-! ### Classification (R139 to R144) -/

/-- R140: one of the three THROUGH verdicts. -/
def isThrough : HopVerdict → Bool
  | .throughOk => true
  | .throughDegraded => true
  | .throughNoBaseline => true
  | .inMissing => false
  | .misrouted => false
  | .outMissing => false

/-- R139 to R141: class, fault hop and fault site of a run. -/
structure Finding where
  cls : RunClass
  faultHop : Option Nat
  site : Option FaultSite
  deriving DecidableEq, Repr

/-- R139: what the first hop that is not THROUGH says. -/
def decidingHop (h : HopResult) : Finding :=
  match h.verdict with
  | .misrouted => ⟨.misroute, some h.hop, some (.stray (h.stray.getD Config.unnamedStray.val))⟩
  | .outMissing => ⟨.breakage, some h.hop, some .node⟩
  | _ => ⟨.breakage, some h.hop, some (if h.hop = 0 then .add else .span)⟩

/-- R120, R140: whether a list is judged as truncated: one that carries every hop cannot be, a shorter one is when it
is marked so; a shorter one that is not marked is open (log 14). -/
def judgedTruncated (l : HopList) (n : Nat) : Bool :=
  if n ≤ l.hops.length then false else l.truncated || Config.shortListIsTruncated l.hops.length n

/-- R139, R140: the head classifies its hop list. -/
def classify (l : HopList) (n : Nat) : Finding :=
  match l.hops.find? fun h => !isThrough h.verdict with
  | some h => decidingHop h
  | none =>
    if judgedTruncated l n then ⟨.incomplete, some l.hops.length, some (.peer .silent)⟩
    else match l.hops.find? fun h => h.verdict == .throughDegraded with
      | some h => ⟨.degraded, some h.hop, none⟩
      | none => ⟨.verified, none, none⟩

/-- R122, R141: the finding of a refusal. -/
def refusalFinding (hop : Nat) (reason : Reason) : Finding :=
  match reason with
  | .held => ⟨.deferred, some hop, some (.peer .held)⟩
  | .busy => ⟨.deferred, some hop, some (.peer .busy)⟩
  | r => ⟨.incomplete, some hop, some (.peer r)⟩

/-- R142, R144: the class sent and the verdict. -/
def verdictOf (kind : Kind) (policy : Policy) (cls : RunClass) : RunClass × Verdict :=
  match kind, cls with
  | .baseline, c => (c, .noVerdict)
  | .verify, .incomplete =>
    match policy with
    | .accept => (.partialPath, .pass)
    | .fail => (.incomplete, .fail)
    | .escalate => (.incomplete, .fail)
  | .verify, .verified => (.verified, .pass)
  | .verify, .degraded => (.degraded, .pass)
  | .verify, .partialPath => (.partialPath, .pass)
  | .verify, .breakage => (.breakage, .fail)
  | .verify, .misroute => (.misroute, .fail)
  | .verify, .deferred => (.deferred, .noVerdict)

/-- R142, R143: the policy ESCALATE turns an INCOMPLETE VERIFY run into a check. -/
def escalates (kind : Kind) (policy : Policy) (cls : RunClass) : Bool :=
  kind == .verify && policy == .escalate && cls == .incomplete

/-- R143: the reason carried by a fault site. -/
def siteReason : Option FaultSite → Option Reason
  | some (.peer r) => some r
  | _ => none

/-! ### Applying a verdict (R77 to R81, R145, R146) -/

/-- R79: the fault reason of a FAIL, from the outcome's class (another class than the three: log 13). -/
def failReason (cls : RunClass) : FaultReason :=
  match cls with
  | .breakage => .breakage
  | .misroute => .misroute
  | .incomplete => .incomplete
  | c => faultReasonTable.getD (Config.otherFaultReason c).val .breakage

/-- R78: the state a PASS leaves. -/
def passState (s : Service) (safe : Safe) : Service :=
  match s with
  | .due => if safe = .withdrawConfirm then .awaitConfirm else .inService
  | .unproven => .inService
  | .faulted _ => .inService
  | .inService => .inService
  | .awaitConfirm => .awaitConfirm
  | .held => .held

/-- R78, R79, R80: a verdict's effect on the service state and the retained-permit flag. -/
def Circuit.take (c : Circuit) (v : Verdict) (cls : RunClass) : Circuit :=
  match v with
  | .pass => { c with service := passState c.service c.desc.safe, retained := false }
  | .fail => { c with service := .faulted (failReason cls), retained := false }
  | .noVerdict => c

/-- R145: the last outcome an outcome leaves. -/
def lastOutcomeOf (o : RunOutcome) (time : WallTime) : LastOutcome :=
  { run := o.run, kind := o.kind, cls := o.cls, verdict := o.verdict, faultHop := o.faultHop, site := o.site, time }

/-- R77, R145, R146: the record's fields after an outcome; a HEAD record takes the run's hop list. -/
def Circuit.settle (c : Circuit) (o : RunOutcome) (time : WallTime) (hopList : Option HopList) : Circuit :=
  { c.take o.verdict o.cls with
    lastOutcome := some (lastOutcomeOf o time)
    hopList := if c.desc.role = .head then hopList else c.hopList }

/-- R77: an outcome applied to the record's attached run, up to but not including the detach; an outcome of another
run does nothing. -/
def Device.applyOutcome (d : Device) (i : Fin 256) (o : RunOutcome) (hopList : Option HopList) : Device :=
  match d.circuit i with
  | none => d
  | some c =>
    if c.run.map (·.id) ≠ some o.run then d
    else
      let before := d.circuit i
      let d := d.onCircuit i (·.settle o d.clock.time hopList)
      let d := if o.verdict = .noVerdict then d else d.resolve i
      (d.attendChange i before).raiseOwner c.owner .outcome

/-! ### The end of a head run (R108, R146) -/

/-- R146: the hop list recorded for a head run: the list classified, or hop 0 alone once it is formed (its truncated
flag is open, log 15), or none. -/
def Run.finalList (r : Run) : Option HopList :=
  if r.hopList.hops ≠ [] then some r.hopList
  else r.own.map fun h => ⟨[h], Config.refusedListTruncated⟩

/-- R97: a run that ends DEFERRED put back in the queue, with the defer delay. -/
def Device.deferRun (d : Device) (slot : Fin 32) : Device :=
  match d.grantOf slot with
  | some g => d.putBack g (some (d.now + seconds d.timings.deferDelay))
  | none => d

/-- R108: a head run ends with an outcome; `cancel` says that a CANCEL follows the OUTCOME. -/
def Device.endHead (d : Device) (slot : Fin 32) (f : Finding) (cancel : Bool) : Device :=
  match d.runs.get slot with
  | none => d
  | some r =>
    match d.circuit r.circuit with
    | none => d
    | some c =>
      let d := (d.giveUpListen slot).freeInjectorOf slot
      let v := verdictOf r.kind c.desc.policy f.cls
      let o : RunOutcome :=
        { cid := c.cid, run := r.id, kind := r.kind, cls := v.1, verdict := v.2, faultHop := f.faultHop, site := f.site }
      let d := if escalates r.kind c.desc.policy f.cls then
          d.raiseCheck (.escalatedOutcome r.circuit c.cid r.id f.faultHop (siteReason f.site))
        else d
      let d := d.applyOutcome r.circuit o r.finalList
      let d := if f.cls = .deferred then d.deferRun slot else d
      let d := d.sendOpt r.down (.outcome o)
      let d := if cancel then d.sendOpt r.down (.cancel c.cid r.id) else d
      (d.freeRun slot).judgeStaged r.circuit

/-- R104, R118, R124, R125, R127: a run freed without a verdict, and the record's staged edit judged if it is now
quiescent (R20). -/
def Device.dropRun (d : Device) (slot : Fin 32) : Device :=
  match d.runs.get slot with
  | none => d
  | some r => (d.freeRun slot).judgeStaged r.circuit

end Sys2Proof.Machine
end

