-- ==== Sys2Proof/Machine/ArbiterOps.lean ====
section
/-! DEFINITION. The Arbiter: eligibility, promotion, grants and preemption (R92 to R99, R107). -/

namespace Sys2Proof.Machine

/-- R101: what blocks an entry, in the order of R92's table. -/
inductive Blocking where
  | held
  | runAttached
  | deferred
  | noRunSlot
  | noListenSlot
  | frozen
  deriving DecidableEq, Repr

/-- R92: the first condition of eligibility that fails, none for an eligible entry. -/
def Device.blocking (d : Device) (e : QueueEntry) : Option Blocking :=
  match d.circuit e.circuit with
  | none => some .held
  | some c =>
    if c.service = .held then some .held
    else if c.run.isSome then some .runAttached
    else if e.eligibleAfter.any (d.now < ·) then some .deferred
    else if d.runs.firstFree.isNone then some .noRunSlot
    else if !d.canListen c.desc then some .noListenSlot
    else if d.freezeIn then some .frozen
    else none

/-- R92: an eligible entry. -/
def Device.eligible (d : Device) (e : QueueEntry) : Bool := (d.blocking e).isNone

/-! ### Grants (R94 to R96, R103, R107) -/

/-- R95: one class up for an entry that has held LOW or NORMAL for more than the promotion age. -/
def QueueEntry.promote (now age : Nat) (e : QueueEntry) : QueueEntry :=
  if e.classTime + age < now then
    match e.cls with
    | .low => { e with cls := .normal, classTime := now }
    | .normal => { e with cls := .high, classTime := now }
    | .high => e
    | .urgent => e
  else e

/-- R95: the promotion at a grant. -/
def Device.promote (d : Device) : Device :=
  { d with queue := d.queue.map (·.promote d.now (seconds d.timings.promotionAge)) }

/-- R94: the entry a grant takes. -/
def Device.best (d : Device) : Option QueueEntry := d.grantOrder.find? d.eligible

/-- R94: a FREE injector and an eligible entry. -/
def Device.canGrant (d : Device) : Bool := d.freeInjector.isSome && d.queue.any d.eligible

/-- R103: the run number after one that is used. -/
def nextRunNumber (n : Nat) : Nat := if n < 65535 then n + 1 else 1

/-- R105: the ARMED wait of a node, in milliseconds. -/
def Device.armedWait (d : Device) (k n : Nat) : Nat := seconds (d.timings.armBase * (n - 1 - k))

/-- R105: the REPORT wait of a node, in milliseconds. -/
def Device.reportWait (d : Device) (k n : Nat) : Nat := seconds (d.timings.reportBase * (n - 1 - k))

/-- R105: the STOP wait, in milliseconds. -/
def Device.stopWait (d : Device) (dwell : Nat) : Nat := dwell * 100 + seconds (2 * d.timings.armBase)

/-- R105: the OUTCOME wait, in milliseconds. -/
def Device.outcomeWait (d : Device) : Nat := seconds d.timings.outcomeWait

/-- R107: the head run a grant opens. -/
def headRun (d : Device) (e : QueueEntry) (c : Circuit) : Run where
  id := ⟨d.nodeId, d.nextRun⟩
  circuit := e.circuit
  kind := e.kind
  role := .head
  k := 0
  n := c.desc.n
  phase := .announcing
  up := none
  down := c.desc.egress.degree?
  dwell := c.desc.dwell
  deadline := d.now + d.armedWait 0 c.desc.n
  listen := .opened
  own := none
  hopList := ⟨[], false⟩

/-- R96: the grant record of a grant. -/
def grantRecord (d : Device) (e : QueueEntry) (slot : Fin 32) (j : Fin 4) : GrantRecord where
  slot := slot
  injector := j
  circuit := e.circuit
  kind := e.kind
  cls := e.cls
  arrival := e.arrival
  classTime := e.classTime
  grantedAt := d.now

/-- R94 steps 3 to 5, R107: the entry leaves the queue, injector, grant record and run are made, the listen slots are
claimed and the run attached. -/
def Device.openHead (d : Device) (e : QueueEntry) (c : Circuit) (j : Fin 4) (slot : Fin 32) : Device :=
  let d' := { d with
    queue := d.queue.filter fun x => !x.isFor e.circuit e.kind
    injectors := d.injectors.set j (.granted slot)
    grants := d.grants ++ [grantRecord d e slot j]
    runs := d.runs.set slot (some (headRun d e c))
    nextRun := nextRunNumber d.nextRun }
  (d'.claim slot c.cid c.desc).attach e.circuit ⟨d.nodeId, d.nextRun⟩ e.kind

/-- R107: a granted run announces itself, or ends at once where its first span is not UP. -/
def Device.announceHead (d : Device) (slot : Fin 32) : Device :=
  match d.runs.get slot with
  | none => d
  | some r =>
    match r.down with
    | none => d
    | some g =>
      if (d.links.get g).state = .up then
        d.send g (.announce (d.cidOf r.circuit) r.id r.kind 1 r.n r.dwell)
      else d.endHead slot ⟨.incomplete, some 1, some (.peer .linkDown)⟩ false

/-- R94: one grant. -/
def Device.grant (d : Device) : Device :=
  let d := d.promote
  match d.best, d.freeInjector, d.runs.firstFree with
  | some e, some j, some slot =>
    match d.circuit e.circuit with
    | some c => (d.openHead e c j slot).announceHead slot
    | none => d
  | _, _, _ => d

/-! ### Preemption (R98, R99) -/

/-- R98: an URGENT entry whose preempt time has passed. -/
def Device.overdueUrgent (d : Device) (e : QueueEntry) : Bool :=
  e.cls == .urgent && e.classTime + seconds d.timings.preemptTime ≤ d.now

/-- R98: a grant record whose run may be preempted. -/
def Device.preemptable (d : Device) (g : GrantRecord) : Bool :=
  g.cls != .urgent && (d.runs.get g.slot).any fun r => r.role == .head && r.phase == .announcing

/-- R98: the run with the latest grant instant, the one granted last among equals. -/
def Device.victim (d : Device) : Option GrantRecord :=
  (d.grants.filter d.preemptable).foldl
    (fun best g => match best with
      | none => some g
      | some b => if b.grantedAt ≤ g.grantedAt then some g else some b) none

/-- R98: the condition of a preemption. -/
def Device.canPreempt (d : Device) : Bool :=
  d.freeInjector.isNone && d.queue.any (fun e => d.overdueUrgent e && d.eligible e) && d.victim.isSome

/-- R98, R99, R109: one preemption: CANCEL downstream, the run put back and freed. -/
def Device.preempt (d : Device) : Device :=
  match d.victim with
  | none => d
  | some g =>
    match d.runs.get g.slot with
    | none => d
    | some r =>
      let d := d.sendOpt r.down (.cancel (d.cidOf r.circuit) r.id)
      (d.putBack g none).dropRun g.slot

/-! ### The Arbiter's judgement at the end of an event (R94, R98) -/

/-- R94, R98: grants while the condition holds; preemptions too once one is called for. Each grant takes an entry and
each preemption is followed by the grant of an URGENT entry, so `fuel` from the length of the queue is never used up
in a state the part can reach (log 22). -/
def Device.grantAll (fuel : Nat) (judge : Bool) (d : Device) : Device :=
  match fuel with
  | 0 => d
  | fuel + 1 =>
    if d.canGrant then Device.grantAll fuel true d.grant
    else if judge && d.canPreempt then Device.grantAll fuel true d.preempt
    else d

/-- R98: an URGENT entry past its preempt time has become eligible since `before`. -/
def Device.urgentWoke (before d : Device) : Bool :=
  d.queue.any fun e => d.overdueUrgent e && d.eligible e &&
    !(before.queue.any fun x => x.isFor e.circuit e.kind && before.eligible x)

/-- R94, R98: the Arbiter's judgement after an event took the part from `before` to `d`; `judge` says that the event
itself calls for a preemption judgement. -/
def Device.arbitrate (before : Device) (judge : Bool) (d : Device) : Device :=
  Device.grantAll (4 * d.queue.length + 4) (judge || before.urgentWoke d) d


/-- R94: an event that can make a grant possible, with the Arbiter's judgement at its end. -/
def thenArbitrate (f : Device → Device) (d : Device) : Device := Device.arbitrate d false (f d)

end Sys2Proof.Machine
end

