-- ==== Sys2Proof/Machine/CalendarOps.lean ====
section
/-! DEFINITION. The calendar's evaluation and the wall clock's ticks (R44, R47, R48, R58 to R64). -/

namespace Sys2Proof.Machine

/-! ### One window's transitions (R59 to R62) -/

/-- R58: the wall time as the calendar compares it. -/
def Device.wallNow (d : Device) : Nat := d.clock.time.number

/-- One window slot written. -/
def Device.putWindow (d : Device) (w : Fin 16) (x : Option Window) : Device := { d with windows := d.windows.set w x }

/-- R63: a window's state changed, with WINDOW attention. -/
def Device.moveWindow (d : Device) (w : Fin 16) (x : Window) : Device := (d.putWindow w (some x)).raiseLine .window

/-- R59: a baseline asked for a captured record, from the queue at a HEAD and upstream at any other. -/
def Device.askBaseline (d : Device) (i : Fin 256) : Device :=
  match d.circuit i with
  | none => d
  | some c =>
    if c.desc.role = .head then d.enqueue i .baseline .normal
    else d.sendOpt c.upstream (.request c.cid .baseline)

/-- R59: SCHEDULED to BASELINING. -/
def Device.toBaselining (w : Fin 16) (d : Device) : Device :=
  match d.windows.get w with
  | none => d
  | some x =>
    if x.state = .scheduled ∧ 0 < x.lead ∧ x.openAt.number ≤ d.wallNow + x.lead then
      let captured := d.scopeOf x
      let d := d.moveWindow w
        { x with state := .baselining, baseliningSince := some ⟨d.clock.time, d.now⟩, baselineSet := captured }
      captured.foldl Device.askBaseline d
    else d

/-- R60: the candidate of a member committed if it was captured after the window's baselining-since instant. -/
def Circuit.commitSince (since : Option Since) (c : Circuit) : Circuit :=
  match since, c.candidate with
  | some s, some b =>
    if s.instant < b.capturedAt then
      { c with committed := some ⟨b.inLevel, b.outLevel, b.time⟩, candidate := none }
    else c
  | _, _ => c

/-- R60: SCHEDULED or BASELINING to OPEN. -/
def Device.toOpen (w : Fin 16) (d : Device) : Device :=
  match d.windows.get w with
  | none => d
  | some x =>
    if (x.state = .scheduled ∨ x.state = .baselining) ∧ x.openAt.number ≤ d.wallNow then
      let members := d.scopeOf x
      let d := d.moveWindow w { x with state := .opened, members }
      members.foldl (fun d i => d.onCircuit i (·.commitSince x.baseliningSince)) d
    else d

/-- R61: OPEN to VERIFYING. -/
def Device.toVerifying (w : Fin 16) (d : Device) : Device :=
  match d.windows.get w with
  | none => d
  | some x =>
    if x.state = .opened ∧ (x.closing ∨ x.closeAt.number ≤ d.wallNow) then
      d.moveWindow w
        { x with state := .verifying, verifyingSince := some d.clock.time, closing := false, unresolved := x.members }
    else d

/-- R62: VERIFYING or OVERDUE to DONE. -/
def Device.toDone (w : Fin 16) (d : Device) : Device :=
  match d.windows.get w with
  | none => d
  | some x => if x.state.awaits ∧ x.unresolved = [] then d.moveWindow w { x with state := .done } else d

/-- R62: the verify limit of a window has passed. -/
def Window.limitPassed (x : Window) (now : Nat) : Bool :=
  x.verifyingSince.any fun t => t.number + x.verifyLimit ≤ now

/-- R62: VERIFYING to OVERDUE. -/
def Device.toOverdue (w : Fin 16) (d : Device) : Device :=
  match d.windows.get w with
  | none => d
  | some x =>
    if x.state = .verifying ∧ x.limitPassed d.wallNow then d.moveWindow w { x with state := .overdue } else d

/-- R58: one window carried as far forward as the time calls for. -/
def Device.walkWindow (d : Device) (w : Fin 16) : Device :=
  d.toBaselining w |>.toOpen w |>.toVerifying w |>.toDone w |>.toOverdue w

/-! ### The evaluation (R58, R64) -/

/-- R64: the window was yet to open, or OPEN, before the walk. -/
def Window.notYetClosed (x : Window) : Bool := x.state == .scheduled || x.state == .baselining || x.state == .opened

/-- R64: the window was yet to open before the walk. -/
def Window.notYetOpen (x : Window) : Bool := x.state == .scheduled || x.state == .baselining

/-- R64: after the walk the window lists the circuit and has left SCHEDULED and BASELINING. -/
def Window.took (x : Window) (i : Fin 256) : Bool := !x.notYetOpen && x.members.contains i

/-- R64: the hold change of one circuit, from the windows before and after the walk. -/
def holdChangeOf (before after : Table (Option Window) 16) (i : Fin 256) : HoldChange where
  added := (List.finRange 16).filter fun w =>
    (before.get w).any Window.notYetOpen && (after.get w).any (·.took i)
  closed := (List.finRange 16).filter fun w =>
    (before.get w).any Window.notYetClosed && (after.get w).any fun x => !x.notYetClosed && x.took i
  held := (List.finRange 16).filter fun w =>
    (after.get w).any fun x => x.state == .opened && x.members.contains i

/-- R64: the hold change delivered to one circuit if the evaluation touched it. -/
def deliver (before after : Table (Option Window) 16) (d : Device) (i : Fin 256) : Device :=
  let h := holdChangeOf before after i
  if h.added.isEmpty && h.closed.isEmpty then d else d.holdChange i h

/-- R58: the windows walked in slot order. -/
def Device.walk (d : Device) : Device := (List.finRange 16).foldl Device.walkWindow d

/-- R58, R64: one evaluation: the walk, and then the hold changes in ascending index order. -/
def Device.evaluate (d : Device) : Device :=
  let d' := d.walk
  (List.finRange 256).foldl (deliver d.windows d'.windows) d'

/-! ### Ticks (R44, R47, R48) -/

/-- R44: the minute carry. -/
def WallTime.carry (t : WallTime) : WallTime :=
  if t.minute < 1439 then { t with minute := t.minute + 1, second := 0 }
  else ⟨(t.day + 1) % 65536, 0, 0⟩

/-- R44: the time after one tick. -/
def WallTime.tick (t : WallTime) : WallTime := if t.second < 59 then { t with second := t.second + 1 } else t.carry

/-- The clock changed. -/
def Device.onClock (d : Device) (f : Clock → Clock) : Device := { d with clock := f d.clock }

/-- R44: a tick that finds the second at 59 carries the minute. -/
def WallTime.carries (t : WallTime) : Bool := 59 ≤ t.second

/-- R44, R47: a tick from either source: during a hold the pending tick or SLIP, otherwise one second, with an
evaluation after a minute carry. -/
def Device.tick (d : Device) : Device :=
  if d.clock.held then
    if d.clock.pendingTick then (d.onClock fun c => { c with slip := true }).raiseLine .clock
    else d.onClock fun c => { c with pendingTick := true }
  else
    let carried := d.clock.time.carries
    let d := d.onClock fun c => { c with time := c.time.tick }
    if carried then d.evaluate else d

/-- R48: the end of a hold: the pending tick applied, HELD and the hold limit gone, one evaluation. -/
def Device.endHold (d : Device) : Device :=
  Device.evaluate <| d.onClock fun c =>
    { c with
      time := if c.pendingTick then c.time.tick else c.time
      pendingTick := false
      held := false
      holdDeadline := none }

end Sys2Proof.Machine
end

