-- ==== Sys2Proof/Machine/Layouts.lean ====
section
/-! DEFINITION. The records as ports read them (R14, R37, R66, R85, R101, R131, R159, R167 to R169, R184, R185, R192). -/

namespace Sys2Proof.Machine

/-- R184: an optional group, a presence byte and then its fields, zeros for their length when absent. -/
def group (len : Nat) (o : Option (List Byte)) : List Byte :=
  match o with
  | some bs => 1 :: bs
  | none => 0 :: List.replicate len 0

/-- R182: `first` coded 0 and `second` coded 1, for the two values of a table (ON and OFF, GRANTED and WITHHELD). -/
def firstOf (isFirst : Bool) : List Byte := [if isFirst then 0 else 1]

/-- R184: the envelope of a READ response. -/
def envelope (t : TableName) (index marking : Nat) : List Byte :=
  codeByte tableNameTable t ++ be 2 index ++ be 1 marking

/-- R14, R165: a port reads as a LINE port unless its role is TENANT. -/
def Device.readsAll (d : Device) (p : Fin 4) : Bool := d.role p != some .tenant

/-- R14: the port sees the circuit in full. -/
def Device.sees (d : Device) (p : Fin 4) (i : Fin 256) : Bool :=
  d.readsAll p || (d.circuit i).any fun c => c.owner == .port p

/-! ### Circuit records (R185) -/

/-- R182: the code of a service state, in the order of R67. -/
def serviceCode : Service → Nat
  | .unproven => 0
  | .inService => 1
  | .held => 2
  | .due => 3
  | .awaitConfirm => 4
  | .faulted _ => 5

/-- R67: the fault reason, present in FAULTED. -/
def Service.reason : Service → Option FaultReason
  | .faulted r => some r
  | _ => none

/-- R185: a degree or a tap number, as the role says. -/
def Place.number : Place → Nat
  | .tap t => t.val
  | .degree g => g.val

/-- R185: the owner, a port or 4 for LINE. -/
def Owner.code : Owner → Nat
  | .port p => p.val
  | .line => 4

/-- R185: the last outcome of a record. -/
def LastOutcome.bytes (o : LastOutcome) : List Byte :=
  runIdBytes o.run ++ codeByte kindTable o.kind ++ codeByte runClassTable o.cls ++ codeByte verdictTable o.verdict ++
    optByte o.faultHop ++ be 1 (siteCode o.site) ++ be 1 (siteDetail o.site) ++ wallBytes o.time

/-- R185: a staged edit. -/
def StagedEdit.bytes (e : StagedEdit) : List Byte :=
  flagByte e.transparent ++ be 1 e.changes.length ++
    e.changes.flatMap fun ch => codeByte fieldTable ch.field ++ be 2 ch.value

/-- R185: the fields of a circuit record. R184 reads an absent group as zeros for the length of its fields; that an
absent staged edit is two (flag and count) and an absent hop list one (flags) is the model's choice (log 33). -/
def Circuit.bytes (c : Circuit) : List Byte :=
  be 3 c.cid ++ be 1 c.owner.code ++ codeByte nodeRoleTable c.desc.role ++ be 1 c.desc.k ++ be 1 c.desc.n ++
    be 1 c.desc.channel ++ be 1 c.desc.ingress.number ++ be 1 c.desc.egress.number ++ be 1 c.desc.dwell ++
    be 1 c.desc.tolerance ++ codeByte policyTable c.desc.policy ++ codeByte safeTable c.desc.safe ++
    be 1 (serviceCode c.service) ++ optByte (c.service.reason.map (codeIn faultReasonTable)) ++
    firstOf c.permitRequest ++ flagByte c.retained ++ firstOf c.permit ++ be 1 c.attempts ++
    group 5 (c.run.map fun r => runIdBytes r.id ++ codeByte kindTable r.kind) ++
    group 9 (c.committed.map fun b => beInt 2 b.inLevel ++ beInt 2 b.outLevel ++ wallBytes b.time) ++
    group 13 (c.candidate.map fun b =>
      beInt 2 b.inLevel ++ beInt 2 b.outLevel ++ wallBytes b.time ++ runIdBytes b.run) ++
    group 15 (c.lastOutcome.map LastOutcome.bytes) ++ group 2 (c.staged.map StagedEdit.bytes) ++
    codeByte editResultTable c.lastEdit ++ group 1 (c.hopList.map hopListBytes)

/-- R14: what a port reads at a circuit entry, marking and fields. -/
def Device.circuitRecord (d : Device) (p : Fin 4) (i : Fin 256) : Nat × List Byte :=
  match d.circuit i with
  | none => (1, [])
  | some c => if d.sees p i then (0, c.bytes) else (2, [])

/-! ### Window records (R66, R185) -/

/-- R66, R185: a set of indices, the whole number of them and those the port may see. -/
def Device.setBytes (d : Device) (p : Fin 4) (l : List (Fin 256)) : List Byte :=
  let seen := l.filter (d.sees p)
  be 2 l.length ++ be 2 seen.length ++ seen.map fun i => BitVec.ofNat 8 i.val

/-- R185: a day and a minute. -/
def DayMinute.bytes (t : DayMinute) : List Byte := be 2 t.day ++ be 2 t.minute

/-- R185, R192: the fields of a window record. -/
def Device.windowBytes (d : Device) (p : Fin 4) (w : Window) : List Byte :=
  codeByte windowStateTable (some w.state) ++ be 1 w.creator.val ++ w.openAt.bytes ++ w.closeAt.bytes ++
    be 1 w.lead ++ be 1 w.verifyLimit ++ be 1 (listToBits w.degrees) ++ be 2 (listToBits w.taps) ++
    flagByte w.closing ++
    group 9 (w.baseliningSince.map fun s => wallBytes s.time ++ be 4 (instantUnits s.instant)) ++
    group 5 (w.verifyingSince.map wallBytes) ++
    d.setBytes p w.baselineSet ++ d.setBytes p w.members ++ d.setBytes p w.unresolved

/-- R52, R66: what a port reads at a window slot; an EMPTY one is its index and the state EMPTY, and holds no other field
(log 12). -/
def Device.windowRecord (d : Device) (p : Fin 4) (w : Fin 16) : Nat × List Byte :=
  match d.windows.get w with
  | none => (0, codeByte windowStateTable none)
  | some x => (0, d.windowBytes p x)

/-! ### Run records (R131, R185) -/

/-- R182: the code of an injector's state, in the order of R38. -/
def Injector.code : Injector → Nat
  | .free => 0
  | .granted _ => 1
  | .driving _ _ _ _ _ => 2

/-- R185: the fields of a run record; that a hop list with no results yet reads as absent, and not as present with count
0, is the model's choice (log 36). -/
def Device.runBytes (d : Device) (slot : Fin 32) (r : Run) : List Byte :=
  let inj := d.injectorOf slot
  let g := d.grantOf slot
  runIdBytes r.id ++ be 1 r.circuit.val ++ be 3 (d.cidOf r.circuit) ++ codeByte kindTable r.kind ++
    codeByte nodeRoleTable r.role ++ be 1 r.k ++ be 1 r.n ++ codeByte phaseTable r.phase ++
    optByte (r.up.map (·.val)) ++ optByte (r.down.map (·.val)) ++ be 1 r.dwell ++
    be 2 (units 100 (r.deadline - d.now)) ++ optByte (inj.map (·.val)) ++
    optByte (inj.map fun j => (d.injectors.get j).code) ++ codeByte listenTable r.listen ++
    optByte (g.map fun x => codeIn qClassTable x.cls) ++ be 4 ((g.map (·.arrival)).getD Config.absentArrival) ++
    group 12 (r.own.map hopBytes) ++
    group 1 (if r.hopList.hops.isEmpty then none else some (hopListBytes r.hopList))

/-- R131: what a port reads at a run slot. -/
def Device.runRecord (d : Device) (p : Fin 4) (slot : Fin 32) : Nat × List Byte :=
  match d.runs.get slot with
  | none => (1, [])
  | some r =>
    if d.sees p r.circuit then (0, d.runBytes slot r)
    else (2, codeByte nodeRoleTable r.role ++ codeByte phaseTable r.phase)

/-! ### Queue entries (R101, R192) -/

/-- R192: the code of a blocking cause, 00h for NONE. -/
def blockingCode : Option Blocking → Nat
  | none => 0
  | some .held => 1
  | some .runAttached => 2
  | some .deferred => 3
  | some .noRunSlot => 4
  | some .noListenSlot => 5
  | some .frozen => 6

/-- R192: the fields of a queue entry. -/
def Device.entryBytes (d : Device) (e : QueueEntry) : List Byte :=
  be 1 e.circuit.val ++ be 3 (d.cidOf e.circuit) ++ codeByte kindTable e.kind ++ codeByte qClassTable e.cls ++
    be 4 e.arrival ++ be 4 (units 1000 (d.now - e.classTime)) ++
    be 4 (units 1000 (e.eligibleAfter.getD 0 - d.now)) ++ be 1 (blockingCode (d.blocking e))

/-- R101: what a port reads at a place of the queue; none past its end. -/
def Device.queueRecord (d : Device) (p : Fin 4) (index : Nat) : Option (Nat × List Byte) :=
  d.grantOrder[index]?.map fun e =>
    if d.sees p e.circuit then (0, d.entryBytes e)
    else (2, codeByte kindTable e.kind ++ codeByte qClassTable e.cls)

/-! ### Taps, links and lines (R37, R159, R176, R185, R192) -/

/-- R37: the port sees a listen slot in full. -/
def Device.seesSlot (d : Device) (p : Fin 4) (s : ListenSlot) : Bool :=
  d.readsAll p || (d.findCid s.cid).any fun i => (d.circuit i).any fun c => c.owner == .port p

/-- R37, R185: one listen slot, nine bytes; that a free one (marking 00h) goes on with zeros is the model's choice
(log 34). -/
def Device.slotBytes (d : Device) (p : Fin 4) (o : Option ListenSlot) : List Byte :=
  match o with
  | none => List.replicate 9 0
  | some s =>
    if d.seesSlot p s then
      1 :: (be 1 s.run.val ++ be 3 s.cid ++ be 1 s.channel ++ codeByte purposeTable s.purpose ++ be 1 s.good ++ be 1 s.bad)
    else 2 :: List.replicate 8 0

/-- R37, R185: the fields of a tap. -/
def Device.tapBytes (d : Device) (p : Fin 4) (t : Fin 16) : List Byte :=
  let x := d.taps.get t
  tapSettingsBytes x.settings ++ levelBytes x.level ++ codeByte lightClassTable x.lightClass ++
    x.slots.cells.flatMap (d.slotBytes p)

/-- R159, R192: the fields of a link. -/
def Device.linkBytes (d : Device) (g : Fin 4) : List Byte :=
  let l := d.links.get g
  be 1 g.val ++ codeByte linkStateTable l.state ++ be 2 (d.expected g) ++ be 2 (l.seenId.getD 0) ++
    optByte (l.seenDegree.map (·.val)) ++ be 1 l.agreeing ++
    be 2 ((l.silence.map fun t => units 100 (t - d.now)).getD 0xFFFF) ++ be 1 l.queue.length

/-- R168, R192: the fields of a line. LINES has a record for each of the eight lines and none for an output function
assigned to no line, of which R176 says that the table shows it: the model follows R168 and R192 (log 38). -/
def Device.lineBytes (d : Device) (l : Fin 8) : List Byte :=
  codeByte lineFnTable (d.lineFn l) ++ flagByte (d.lineLevel l)

/-! ### The check report and the device status (R167, R173, R192) -/

/-- R192: the code of a cause. -/
def CheckCause.code : CheckCause → Nat
  | .escalatedOutcome _ _ _ _ _ => 0
  | .neighbourMismatch _ _ _ _ => 1
  | .storeFailed _ => 2

/-- R192: the ten bytes of a cause's detail. -/
def CheckCause.detail : CheckCause → List Byte
  | .escalatedOutcome i cid run hop reason =>
    be 1 i.val ++ be 3 cid ++ runIdBytes run ++ optByte hop ++ optByte (reason.map (codeIn reasonTable))
  | .neighbourMismatch g node degree accepting =>
    be 1 g.val ++ be 2 node ++ be 1 degree ++ be 2 accepting ++ List.replicate 4 0
  | .storeFailed stage => be 1 stage.val ++ List.replicate 9 0

/-- R173, R192: the fields of the check report. -/
def CheckReport.bytes (r : CheckReport) : List Byte :=
  be 1 r.cause.code ++ wallBytes r.time ++ be 1 r.count ++ r.cause.detail

/-- R43, R192: the clock flags. -/
def Clock.flags (c : Clock) : List Byte :=
  [BitVec.ofNat 8 ((if c.unset then 1 else 0) + (if c.held then 2 else 0) + (if c.pendingTick then 4 else 0) +
    (if c.slip then 8 else 0) + (if c.ppsLost then 16 else 0))]

/-- R167: the number of windows in a state. -/
def Device.windowCount (d : Device) (s : Option WindowState) : Nat :=
  (d.windows.cells.filter fun w => w.map (·.state) == s).length

/-- R167, R192: the device status record as a port reads it; that the count is 0 while no check report is present is the
model's choice (log 35). -/
def Device.statusBytes (d : Device) (p : Fin 4) : List Byte :=
  flagByte d.configured ++ flagByte d.storing.isSome ++ be 2 d.nodeId ++ be 2 (d.pendingNode.getD 0) ++ be 1 p.val ++
    optByte ((d.role p).map (codeIn roleTable)) ++ wallBytes d.clock.time ++ d.clock.flags ++
    flagByte (d.clock.source == .pps) ++ be 2 (d.circuits.cells.filter (·.isSome)).length ++
    be 1 (d.runs.cells.filter (·.isSome)).length ++
    windowStateTable.flatMap (fun s => be 1 (d.windowCount s)) ++ be 2 d.queue.length ++
    d.injectors.cells.flatMap (fun j => be 1 j.code) ++
    d.links.cells.flatMap (fun l => codeByte linkStateTable l.state) ++ flagByte d.check.isSome ++
    optByte (d.check.map (·.cause.code)) ++ be 1 ((d.check.map (·.count)).getD 0) ++ flagByte d.ppsIn ++
    flagByte d.freezeIn

/-! ### READ (R168, R169) -/

/-- R168: the number of indices of a table (R169: for the queue, of its entries). -/
def tableSize : TableName → Nat
  | .circuits => 256
  | .windows => 16
  | .runs => 32
  | .queue => 512
  | .taps => 16
  | .links => 4
  | .lines => 8
  | .status => 1
  | .check => 1

/-- R169: the record at a cursor, marking and fields; none past the last record of the table. -/
def Device.recordAt (d : Device) (p : Fin 4) (t : TableName) (index : Nat) : Option (Nat × List Byte) :=
  match t with
  | .circuits => if h : index < 256 then some (d.circuitRecord p ⟨index, h⟩) else none
  | .windows => if h : index < 16 then some (d.windowRecord p ⟨index, h⟩) else none
  | .runs => if h : index < 32 then some (d.runRecord p ⟨index, h⟩) else none
  | .queue => d.queueRecord p index
  | .taps => if h : index < 16 then some (0, d.tapBytes p ⟨index, h⟩) else none
  | .links => if h : index < 4 then some (0, d.linkBytes ⟨index, h⟩) else none
  | .lines => if h : index < 8 then some (0, d.lineBytes ⟨index, h⟩) else none
  | .status => if index = 0 then some (0, d.statusBytes p) else none
  | .check =>
    if index = 0 then
      some (match d.check with
        | some r => (0, r.bytes)
        | none => (5, []))
    else none

/-- R174: the overlay applies to the port. -/
def Device.overlaid (d : Device) (p : Fin 4) : Bool := d.isLine p && d.check.isSome && !(d.ports.get p).cleared

/-- R169, R174, R184: the body of a READ response, and whether the cursor moves on. -/
def Device.readBody (d : Device) (p : Fin 4) : List Byte × Bool :=
  let x := d.ports.get p
  match d.overlaid p, d.check with
  | true, some r => (envelope x.table x.index 4 ++ r.bytes, false)
  | _, _ =>
    match d.recordAt p x.table x.index with
    | some (marking, fields) => (envelope x.table x.index marking ++ fields, true)
    | none => (envelope x.table x.index 3, false)

end Sys2Proof.Machine
end

