-- ==== Sys2Proof/Machine/Operands.lean ====
section
/-! DEFINITION. What the body of a request spells (R184, R191), and the judgement of the circuit it names (R2). -/

namespace Sys2Proof.Machine

/-- R184: a flag byte, none for another value than 00h or 01h. -/
def flagOf (v : Nat) : Option Bool := if v = 0 then some false else if v = 1 then some true else none

/-- R182, R191: ON is coded 0 and OFF 1, as in the circuit record. -/
def onOffOf (v : Nat) : Option Bool := (flagOf v).map (!·)

/-- R182: the attention classes of a byte, none where it names a class that is not one of the seven. -/
def classesOf (v : Nat) : Option (BitVec 7) := if v < 128 then some (BitVec.ofNat 7 v) else none

/-- R191: a day and a minute of four bytes. -/
def dayMinuteAt (bs : List Byte) (at' : Nat) : DayMinute := ⟨fieldAt bs at' 2, fieldAt bs (at' + 2) 2⟩

/-- R191: a wall time of five bytes. -/
def wallTimeAt (bs : List Byte) (at' : Nat) : WallTime :=
  ⟨fieldAt bs at' 2, fieldAt bs (at' + 2) 2, byteAt bs (at' + 4)⟩

/-- R52: the minute of a window's time is one of a day. -/
def DayMinute.ok (t : DayMinute) : Bool := t.minute < 1440

/-! ### The circuit named (R2) -/

/-- R2: who may send a command about a circuit. -/
inductive Right where
  /-- The owner alone. -/
  | owner
  /-- The owner, and every LINE port. -/
  | ownerOrLine
  deriving DecidableEq, Repr

/-- R2, R3: the port has the right. -/
def Device.mayAct (d : Device) (p : Fin 4) (o : Owner) : Right → Bool
  | .owner => o == .port p || (o == .line && d.isLine p)
  | .ownerOrLine => o == .port p || d.isLine p

/-- R182: the index a body names first. -/
def namedIndex (body : List Byte) : Fin 256 := Fin.ofNat 256 (byteAt body 0)

/-- R182: the circuit id a body names after it. -/
def namedCid (body : List Byte) : Nat := fieldAt body 1 3

/-- R2: the record at the index named, if it has the circuit id named. -/
def Device.named (d : Device) (body : List Byte) : Option Circuit :=
  (d.circuit (namedIndex body)).filter fun c => c.cid == namedCid body

/-- R2: NOT-FOUND before NOT-PERMITTED, and then the command's own judgement. -/
def Device.onNamed (d : Device) (p : Fin 4) (code : Nat) (right : Right) (body : List Byte)
    (act : Fin 256 → Circuit → Device) : Device :=
  match d.named body with
  | none => d.respond p code rcNotFound []
  | some c => if d.mayAct p c.owner right then act (namedIndex body) c else d.respond p code rcNotPermitted []

/-! ### Registration (R7, R10) -/

/-- R184: a soft field of one byte, FFh for the default marking. -/
def softByte (v : Nat) : Nat := if v = 255 then defaultMark else v

/-- R10: the description of a REGISTER-CIRCUIT body; none where a field is out of its range. -/
def registerDesc (body : List Byte) : Option Desc := do
  let role ← nodeRoleTable[byteAt body 3]?
  let ingress ← ingressFor role (byteAt body 7)
  let egress ← egressFor role (byteAt body 8)
  let dwell ← softValue 1 20 5 (softByte (byteAt body 9))
  let tolerance ← softValue 1 100 15 (softByte (byteAt body 10))
  let policy ← softCode policyTable .fail (softByte (byteAt body 11))
  let safe ← softCode safeTable .withdrawAuto (softByte (byteAt body 12))
  let k := byteAt body 4
  let n := byteAt body 5
  let channel := byteAt body 6
  if fieldAt body 0 3 ≠ 0 ∧ k ≤ 15 ∧ 2 ≤ n ∧ n ≤ 16 ∧ 1 ≤ channel ∧ channel ≤ 96 then
    some { role, k, n, channel, ingress, egress, dwell, tolerance, policy, safe }
  else none

/-! ### Edits (R15, R191) -/

/-- R191: the length of an EDIT-CIRCUIT body against the count it carries. -/
def editLengthOk (body : List Byte) : Bool := 6 ≤ body.length && body.length == 6 + 3 * byteAt body 5

/-- R15: the changes of an EDIT-CIRCUIT body from a place on; none where a field code is not one of the ten. -/
def changesAt (bs : List Byte) (at' : Nat) : Nat → Option (List Change)
  | 0 => some []
  | n + 1 => do
    let field ← fieldTable[byteAt bs at']?
    let rest ← changesAt bs (at' + 3) n
    some (⟨field, fieldAt bs (at' + 1) 2⟩ :: rest)

/-- R15: one to ten changes, no field named twice. -/
def editList (body : List Byte) : Option (List Change) :=
  let count := byteAt body 5
  if 1 ≤ count ∧ count ≤ 10 then
    (changesAt body 6 count).filter fun l => decide (l.map (·.field)).Nodup
  else none

/-! ### Windows (R54) -/

/-- R54: the third test of a SCHEDULE-WINDOW body, and the window it describes. -/
def scheduledWindow (p : Fin 4) (now : Nat) (body : List Byte) : Option Window :=
  let openAt := dayMinuteAt body 0
  let closeAt := dayMinuteAt body 4
  let lead := byteAt body 8
  let limit := byteAt body 9
  let degrees := byteAt body 10
  let taps := fieldAt body 11 2
  if openAt.ok && closeAt.ok && openAt.number < closeAt.number && now < closeAt.number && lead ≤ 60 &&
      inRange 5 limit 240 && degrees < 16 && (degrees != 0 || taps != 0) then
    some
      { state := .scheduled, creator := p, openAt, closeAt, lead, verifyLimit := limit
        degrees := bitsToList 4 degrees, taps := bitsToList 16 taps, closing := false
        baseliningSince := none, verifyingSince := none, baselineSet := [], members := [], unresolved := [] }
  else none

end Sys2Proof.Machine
end

