-- ==== Sys2Proof/Machine/CircuitCommands.lean ====
section
/-! DEFINITION. The circuit commands (R1 to R22, R82, R83, R89, R90, R137, R138). -/

namespace Sys2Proof.Machine

/-! ### REGISTER-CIRCUIT (R10 to R12) -/

/-- R3: the owner a registration gives. -/
def Device.ownerFor (d : Device) (p : Fin 4) : Owner := if d.isLine p then .line else .port p

/-- R11: a newly registered record. -/
def newCircuit (cid : Nat) (owner : Owner) (desc : Desc) : Circuit where
  cid := cid
  owner := owner
  desc := desc
  service := .unproven
  permitRequest := false
  retained := false
  run := none
  attempts := 0
  requestDeadline := none
  committed := none
  candidate := none
  lastOutcome := none
  hopList := none
  staged := none
  lastEdit := .none

/-- R10: the tests after the ranges; the entry the record takes, or the code of the test that fails. -/
def Device.judgeRegistration (d : Device) (cid : Nat) (desc : Desc) : Fin 256 ⊕ Nat :=
  if !desc.agrees then .inr rcBadArgument
  else if !d.wellFormed desc then .inr rcBadArgument
  else if (d.findCid cid).isSome then .inr rcConflict
  else if d.conflicts none desc then .inr rcConflict
  else match d.circuits.firstFree with
    | none => .inr rcTableFull
    | some i => .inl i

/-- R11, R12: the record created and handed to the calendar, with CIRCUIT attention to the owner. -/
def Device.create (d : Device) (i : Fin 256) (c : Circuit) : Device :=
  (Device.calendarTakes { d with circuits := d.circuits.set i (some c) } i).attendCircuit c.owner i

/-- R10: REGISTER-CIRCUIT. -/
def Device.register (p : Fin 4) (body : List Byte) (d : Device) : Device :=
  match registerDesc body with
  | none => d.respond p 0x10 rcBadArgument []
  | some desc =>
    match d.judgeRegistration (fieldAt body 0 3) desc with
    | .inr rc => d.respond p 0x10 rc []
    | .inl i =>
      (d.create i (newCircuit (fieldAt body 0 3) (d.ownerFor p) desc)).respond p 0x10 rcOk (be 1 i.val)

/-- R10: a REGISTER-CIRCUIT request. -/
def Device.registerRequest (p : Fin 4) (body : List Byte) (d : Device) : Device :=
  d.request ⟨0x10, false, false⟩ p (body.length == 13) (Device.register p body)

/-- REGISTER_CIRCUIT. -/
def execRegisterCircuit (p : Fin 4) (body : List Byte) (s : State) : Host.Outcome State Fault Refusal :=
  s.on (Device.registerRequest p body)

/-! ### EDIT-CIRCUIT (R15 to R19) -/

/-- R15: the tests of an edit after those of R2; the description it results in, or the code of the test that fails. -/
def Device.judgeRequestedEdit (d : Device) (i : Fin 256) (c : Circuit) (list : Option (List Change)) :
    (List Change × Desc) ⊕ Nat :=
  match list with
  | none => .inr rcBadArgument
  | some changes =>
    match c.desc.overlay changes with
    | none => .inr rcBadArgument
    | some x =>
      if !x.agrees || !d.wellFormed x then .inr rcBadArgument
      else if d.conflicts (some i) x then .inr rcConflict
      else .inl (changes, x)

/-- R19: an edit staged. -/
def Device.stage (d : Device) (i : Fin 256) (e : StagedEdit) : Device :=
  d.onCircuit i fun c => { c with staged := some e, lastEdit := .none }

/-- R16, R18, R19: an accepted edit applied at once or staged. A path edit that moves the taps of a record with queued
entries can make one of them eligible (log 22). -/
def Device.acceptEdit (d : Device) (p : Fin 4) (i : Fin 256) (c : Circuit) (transparent : Bool)
    (changes : List Change) (x : Desc) : Device :=
  let path := isPathEdit changes
  if c.quiescent then
    let d' := (d.applyEdit i x path).respond p 0x11 rcOk []
    if path then Device.arbitrate d false d' else d'
  else if transparent && !path then (d.applyEdit i x false).respond p 0x11 rcOk []
  else (d.stage i ⟨transparent, changes⟩).respond p 0x11 rcStaged []

/-- R15: EDIT-CIRCUIT. -/
def Device.edit (p : Fin 4) (body : List Byte) (d : Device) : Device :=
  match flagOf (byteAt body 4) with
  | none => d.respond p 0x11 rcBadArgument []
  | some transparent =>
    d.onNamed p 0x11 .owner body fun i c =>
      match d.judgeRequestedEdit i c (editList body) with
      | .inr rc => d.respond p 0x11 rc []
      | .inl (changes, x) => d.acceptEdit p i c transparent changes x

/-- R15: an EDIT-CIRCUIT request. -/
def Device.editRequest (p : Fin 4) (body : List Byte) (d : Device) : Device :=
  d.request ⟨0x11, false, false⟩ p (editLengthOk body) (Device.edit p body)

/-- EDIT_CIRCUIT. -/
def execEditCircuit (p : Fin 4) (body : List Byte) (s : State) : Host.Outcome State Fault Refusal :=
  s.on (Device.editRequest p body)

/-! ### DELETE-CIRCUIT (R22, R130) -/

/-- R22: the five steps of a deletion. -/
def Device.remove (d : Device) (i : Fin 256) (owner : Owner) : Device :=
  let d := ((d.removeEntries i).abandonRun i .unknown).forgetIndex i
  Device.attendCircuit { d with circuits := d.circuits.set i none } owner i

/-- R22: DELETE-CIRCUIT. -/
def Device.delete (p : Fin 4) (body : List Byte) (d : Device) : Device :=
  d.onNamed p 0x12 .owner body fun i c =>
    Device.arbitrate d false ((d.remove i c.owner).respond p 0x12 rcOk [])

/-- R22: a DELETE-CIRCUIT request. -/
def Device.deleteRequest (p : Fin 4) (body : List Byte) (d : Device) : Device :=
  d.request ⟨0x12, false, false⟩ p (body.length == 4) (Device.delete p body)

/-- DELETE_CIRCUIT. -/
def execDeleteCircuit (p : Fin 4) (body : List Byte) (s : State) : Host.Outcome State Fault Refusal :=
  s.on (Device.deleteRequest p body)

/-! ### REQUEST-PERMIT and CONFIRM (R82, R83) -/

/-- R83: ON or OFF written; OFF in HELD or DUE clears the retained-permit flag. -/
def Circuit.askPermit (on : Bool) (c : Circuit) : Circuit :=
  { c with
    permitRequest := on
    retained := if !on && (c.service == .held || c.service == .due) then false else c.retained }

/-- R83: REQUEST-PERMIT. -/
def Device.permitRequested (p : Fin 4) (body : List Byte) (d : Device) : Device :=
  match onOffOf (byteAt body 4) with
  | none => d.respond p 0x13 rcBadArgument []
  | some on =>
    d.onNamed p 0x13 .owner body fun i c =>
      ((d.onCircuit i (·.askPermit on)).attendChange i (some c)).respond p 0x13 rcOk []

/-- R83: a REQUEST-PERMIT request. -/
def Device.permitRequest (p : Fin 4) (body : List Byte) (d : Device) : Device :=
  d.request ⟨0x13, false, false⟩ p (body.length == 5) (Device.permitRequested p body)

/-- REQUEST_PERMIT. -/
def execRequestPermit (p : Fin 4) (body : List Byte) (s : State) : Host.Outcome State Fault Refusal :=
  s.on (Device.permitRequest p body)

/-- R20, R82: the record put IN-SERVICE, and its staged edit judged if it is now quiescent. An edit applied so can make
a queued entry eligible (log 22). -/
def Device.confirmed (d : Device) (i : Fin 256) (c : Circuit) : Device :=
  let d' := (d.onCircuit i fun c => { c with service := .inService }).attendChange i (some c)
  if c.staged.isNone then d' else Device.arbitrate d false (d'.judgeStaged i)

/-- R82: CONFIRM. -/
def Device.confirm (p : Fin 4) (body : List Byte) (d : Device) : Device :=
  d.onNamed p 0x14 .owner body fun i c =>
    if c.service = .awaitConfirm then (d.respond p 0x14 rcOk []).confirmed i c
    else d.respond p 0x14 rcWrongState []

/-- R82: a CONFIRM request. -/
def Device.confirmRequest (p : Fin 4) (body : List Byte) (d : Device) : Device :=
  d.request ⟨0x14, false, false⟩ p (body.length == 4) (Device.confirm p body)

/-- CONFIRM. -/
def execConfirm (p : Fin 4) (body : List Byte) (s : State) : Host.Outcome State Fault Refusal :=
  s.on (Device.confirmRequest p body)

/-! ### VERIFY and BASELINE (R89, R90) -/

/-- R191: the disposition and class of a request taken by the queue; FFh for a class no entry has. -/
def Device.disposition (before after : Device) (i : Fin 256) (k : Kind) : List Byte :=
  [if (before.queued i k).isSome then 1 else 0] ++ optByte ((after.queued i k).map fun e => codeIn qClassTable e.cls)

/-- R89, R90: a run asked for, from the queue at a HEAD and upstream at any other. -/
def Device.askRun (d : Device) (p : Fin 4) (code : Nat) (i : Fin 256) (c : Circuit) (k : Kind) (cls : QClass) : Device :=
  if c.service = .held then d.respond p code rcWrongState []
  else if c.desc.role = .head then
    let d' := d.enqueue i k cls
    Device.arbitrate d false (d'.respond p code rcOk (d.disposition d' i k))
  else (d.sendOpt c.upstream (.request c.cid k)).respond p code rcOk [2, 255]

/-- R2: a TENANT port may not set the urgent flag. -/
def Device.mayUrge (d : Device) (p : Fin 4) (urgent : Bool) : Bool := !urgent || d.isLine p

/-- R89: VERIFY. -/
def Device.verify (p : Fin 4) (body : List Byte) (d : Device) : Device :=
  match flagOf (byteAt body 4) with
  | none => d.respond p 0x18 rcBadArgument []
  | some urgent =>
    d.onNamed p 0x18 .ownerOrLine body fun i c =>
      if d.mayUrge p urgent then d.askRun p 0x18 i c .verify (if urgent then .urgent else .low)
      else d.respond p 0x18 rcNotPermitted []

/-- R89: a VERIFY request. -/
def Device.verifyRequest (p : Fin 4) (body : List Byte) (d : Device) : Device :=
  d.request ⟨0x18, false, false⟩ p (body.length == 5) (Device.verify p body)

/-- VERIFY. -/
def execVerify (p : Fin 4) (body : List Byte) (s : State) : Host.Outcome State Fault Refusal :=
  s.on (Device.verifyRequest p body)

/-- R89: BASELINE. -/
def Device.baseline (p : Fin 4) (body : List Byte) (d : Device) : Device :=
  d.onNamed p 0x19 .ownerOrLine body fun i c => d.askRun p 0x19 i c .baseline .normal

/-- R89: a BASELINE request. -/
def Device.baselineRequest (p : Fin 4) (body : List Byte) (d : Device) : Device :=
  d.request ⟨0x19, false, false⟩ p (body.length == 4) (Device.baseline p body)

/-- BASELINE. -/
def execBaseline (p : Fin 4) (body : List Byte) (s : State) : Host.Outcome State Fault Refusal :=
  s.on (Device.baselineRequest p body)

/-! ### COMMIT-BASELINE, DISCARD-BASELINE, CLEAR-BASELINE (R137, R138) -/

/-- R137: the candidate's levels and capture time replace the committed baseline. -/
def Circuit.commit (c : Circuit) : Circuit :=
  match c.candidate with
  | none => c
  | some b => { c with committed := some ⟨b.inLevel, b.outLevel, b.time⟩, candidate := none }

/-- R137: COMMIT-BASELINE. -/
def Device.commitBaseline (p : Fin 4) (body : List Byte) (d : Device) : Device :=
  d.onNamed p 0x1A .ownerOrLine body fun i c =>
    if c.candidate.isNone then d.respond p 0x1A rcNotFound []
    else (d.onCircuit i Circuit.commit).respond p 0x1A rcOk []

/-- R137: a COMMIT-BASELINE request. -/
def Device.commitBaselineRequest (p : Fin 4) (body : List Byte) (d : Device) : Device :=
  d.request ⟨0x1A, false, false⟩ p (body.length == 4) (Device.commitBaseline p body)

/-- COMMIT_BASELINE. -/
def execCommitBaseline (p : Fin 4) (body : List Byte) (s : State) : Host.Outcome State Fault Refusal :=
  s.on (Device.commitBaselineRequest p body)

/-- R138: the candidate removed. -/
def Circuit.discard (c : Circuit) : Circuit := { c with candidate := none }

/-- R138: DISCARD-BASELINE. -/
def Device.discardBaseline (p : Fin 4) (body : List Byte) (d : Device) : Device :=
  d.onNamed p 0x1B .ownerOrLine body fun i c =>
    if c.candidate.isNone then d.respond p 0x1B rcNotFound []
    else (d.onCircuit i Circuit.discard).respond p 0x1B rcOk []

/-- R138: a DISCARD-BASELINE request. -/
def Device.discardBaselineRequest (p : Fin 4) (body : List Byte) (d : Device) : Device :=
  d.request ⟨0x1B, false, false⟩ p (body.length == 4) (Device.discardBaseline p body)

/-- DISCARD_BASELINE. -/
def execDiscardBaseline (p : Fin 4) (body : List Byte) (s : State) : Host.Outcome State Fault Refusal :=
  s.on (Device.discardBaselineRequest p body)

/-- R138: both baselines removed. -/
def Circuit.clearBaselines (c : Circuit) : Circuit := { c with candidate := none, committed := none }

/-- R138: CLEAR-BASELINE. -/
def Device.clearBaseline (p : Fin 4) (body : List Byte) (d : Device) : Device :=
  d.onNamed p 0x1C .ownerOrLine body fun i _ =>
    (d.onCircuit i Circuit.clearBaselines).respond p 0x1C rcOk []

/-- R138: a CLEAR-BASELINE request. -/
def Device.clearBaselineRequest (p : Fin 4) (body : List Byte) (d : Device) : Device :=
  d.request ⟨0x1C, false, false⟩ p (body.length == 4) (Device.clearBaseline p body)

/-- CLEAR_BASELINE. -/
def execClearBaseline (p : Fin 4) (body : List Byte) (s : State) : Host.Outcome State Fault Refusal :=
  s.on (Device.clearBaselineRequest p body)

end Sys2Proof.Machine
end

