-- ==== Sys2Proof/Machine/ClockCommands.lean ====
section
/-! DEFINITION. The clock commands, the ticks, PPS supervision and FREEZE-IN (R44 to R50, R93, R176). -/

namespace Sys2Proof.Machine

/-! ### HOLD-CLOCK (R46) -/

/-- R46: the clock held, with the hold limit 10 s from now. -/
def Clock.hold (now : Nat) (c : Clock) : Clock :=
  { c with held := true, pendingTick := false, holdDeadline := some (now + seconds 10) }

/-- R46: HOLD-CLOCK. -/
def Device.holdClock (p : Fin 4) (d : Device) : Device :=
  if d.clock.held then d.respond p 0x28 rcWrongState []
  else (d.onClock (·.hold d.now)).respond p 0x28 rcOk []

/-- R46: a HOLD-CLOCK request. -/
def Device.holdClockRequest (p : Fin 4) (body : List Byte) (d : Device) : Device :=
  d.request ⟨0x28, true, false⟩ p (body.length == 0) (Device.holdClock p)

/-- HOLD_CLOCK. -/
def execHoldClock (p : Fin 4) (body : List Byte) (s : State) : Host.Outcome State Fault Refusal :=
  s.on (Device.holdClockRequest p body)

/-! ### RELEASE-CLOCK and the hold limit (R48) -/

/-- R48: RELEASE-CLOCK. -/
def Device.releaseClock (p : Fin 4) (d : Device) : Device :=
  if d.clock.held then Device.arbitrate d false (d.respond p 0x29 rcOk []).endHold
  else d.respond p 0x29 rcWrongState []

/-- R48: a RELEASE-CLOCK request. -/
def Device.releaseClockRequest (p : Fin 4) (body : List Byte) (d : Device) : Device :=
  d.request ⟨0x29, true, false⟩ p (body.length == 0) (Device.releaseClock p)

/-- RELEASE_CLOCK. -/
def execReleaseClock (p : Fin 4) (body : List Byte) (s : State) : Host.Outcome State Fault Refusal :=
  s.on (Device.releaseClockRequest p body)

/-- R48: the hold limit ends the hold, with CLOCK attention. -/
def Device.holdExpires (d : Device) : Device :=
  d.onExpiry d.clock.holdDeadline fun d => Device.arbitrate d false (d.endHold.raiseLine .clock)

/-- HOLD_LIMIT. -/
def execHoldLimit (s : State) : Host.Outcome State Fault Refusal := s.on (unlessReset Device.holdExpires)

/-! ### SET-CLOCK and ALIGN-CLOCK (R49, R50) -/

/-- R49: the ranges of a time that is written. -/
def WallTime.settable (t : WallTime) : Bool := t.day < 65536 && t.minute < 2048 && t.second < 60

/-- R49: the time written. -/
def Clock.write (t : WallTime) (c : Clock) : Clock :=
  { c with time := t, pendingTick := false, unset := false, slip := false }

/-- R49: SET-CLOCK. -/
def Device.setClock (p : Fin 4) (body : List Byte) (d : Device) : Device :=
  let t := wallTimeAt body 0
  if !t.settable then d.respond p 0x2A rcBadArgument []
  else if !d.clock.held then d.respond p 0x2A rcWrongState []
  else ((d.onClock (·.write t)).raiseLine .clock).respond p 0x2A rcOk []

/-- R49: a SET-CLOCK request. -/
def Device.setClockRequest (p : Fin 4) (body : List Byte) (d : Device) : Device :=
  d.request ⟨0x2A, true, false⟩ p (body.length == 5) (Device.setClock p body)

/-- SET_CLOCK. -/
def execSetClock (p : Fin 4) (body : List Byte) (s : State) : Host.Outcome State Fault Refusal :=
  s.on (Device.setClockRequest p body)

/-- R50: the time rounded to the nearest minute. -/
def WallTime.align (t : WallTime) : WallTime := if t.second < 30 then { t with second := 0 } else t.carry

/-- R50: ALIGN-CLOCK. -/
def Device.alignClock (p : Fin 4) (d : Device) : Device :=
  if d.clock.held then d.respond p 0x2B rcWrongState []
  else
    Device.arbitrate d false
      ((d.respond p 0x2B rcOk []).onClock fun c => { c with time := c.time.align }).evaluate

/-- R50: an ALIGN-CLOCK request. -/
def Device.alignClockRequest (p : Fin 4) (body : List Byte) (d : Device) : Device :=
  d.request ⟨0x2B, true, false⟩ p (body.length == 0) (Device.alignClock p)

/-- ALIGN_CLOCK. -/
def execAlignClock (p : Fin 4) (body : List Byte) (s : State) : Host.Outcome State Fault Refusal :=
  s.on (Device.alignClockRequest p body)

/-! ### Ticks (R44, R45) -/

/-- R44, R94: a tick, with the Arbiter's judgement where it carries a minute. -/
def Device.tickTaken (d : Device) : Device :=
  if !d.clock.held && d.clock.time.carries then thenArbitrate Device.tick d else d.tick

/-- R44, R45: a tick of the divider, which gives none while the source is PPS. -/
def Device.dividerTick (d : Device) : Device :=
  match d.clock.source with
  | .pps => d
  | .internal =>
    ((d.reach d.clock.dividerDue).onClock fun c => { c with dividerDue := c.dividerDue + seconds 1 }).tickTaken

/-- CLOCK_TICK; the clock runs on while the RST line is asserted (R43). -/
def execClockTick (s : State) : Host.Outcome State Fault Refusal := s.on Device.dividerTick

/-- R45: the clock's source fields at a PPS edge. -/
def Clock.edge (now : Nat) (c : Clock) : Clock :=
  { c with
    source := .pps
    ppsLost := if c.source = .internal then false else c.ppsLost
    dividerDue := now + seconds 1
    ppsDeadline := some (now + seconds 2) }

/-- R45: a PPS edge, with CLOCK attention where it restores the source. -/
def Device.ppsEdge (d : Device) : Device :=
  let restores := d.clock.source == .internal
  let d := d.onClock (·.edge d.now)
  (if restores then d.raiseLine .clock else d).tickTaken

/-- R45: the clock's source fields when PPS supervision runs out at an instant. -/
def Clock.losePps (deadline : Nat) (c : Clock) : Clock :=
  { c with
    source := .internal
    ppsLost := true
    ppsDeadline := none
    dividerDue := if c.source = .pps then deadline else c.dividerDue }

/-- R45: 2 s without an edge. -/
def Device.ppsExpires (d : Device) : Device :=
  match d.clock.ppsDeadline with
  | none => d
  | some t => ((d.reach t).onClock (·.losePps t)).raiseLine .clock

/-- PPS_LOST. -/
def execPpsLost (s : State) : Host.Outcome State Fault Refusal := s.on (unlessReset Device.ppsExpires)

/-! ### Line levels (R45, R93, R176) -/

/-- R45, R93, R176: the outside level of a line changes; PPS-IN may rise and FREEZE-IN may be deasserted by it. -/
def Device.lineChange (l : Fin 8) (high : Bool) (d : Device) : Device :=
  let d' := { d with lineIn := d.lineIn.set l high }
  if !d.ppsIn && d'.ppsIn then d'.ppsEdge
  else if d.freezeIn && !d'.freezeIn then Device.arbitrate d false d'
  else d'

/-- PPS_EDGE. -/
def execPpsEdge (l : Fin 8) (high : Bool) (s : State) : Host.Outcome State Fault Refusal :=
  s.on (Device.lineChange l high)

/-- FREEZE_IN_CHANGE. -/
def execFreezeInChange (l : Fin 8) (high : Bool) (s : State) : Host.Outcome State Fault Refusal :=
  s.on (Device.lineChange l high)

end Sys2Proof.Machine
end

