-- ==== Sys2Proof/Machine/ConfigCommands.lean ====
section
/-! DEFINITION. SET-TAP, the configuration commands, the loads, the stores and the resets (R27, R28, R177 to R181). -/

namespace Sys2Proof.Machine

/-! ### SET-TAP (R27, R28) -/

/-- R27: at least one of the tap's listen slots is occupied. -/
def Device.tapListening (d : Device) (t : Fin 16) : Bool := (d.taps.get t).slots.cells.any (·.isSome)

/-- R27: another tap has the line function for the degree. -/
def Device.lineTapTaken (d : Device) (t : Fin 16) (n : TapSettings) : Bool :=
  (n.fn == .lineIn || n.fn == .lineOut) &&
    (List.finRange 16).any fun u => u != t && (d.tapSettings u).fn == n.fn && (d.tapSettings u).degree == n.degree

/-- R27: the request changes the function or the degree. -/
def TapSettings.moves (old new : TapSettings) : Bool := old.fn != new.fn || old.degree != new.degree

/-- R27: the tests of SET-TAP after the ranges. -/
def Device.judgeTap (d : Device) (t : Fin 16) (n : TapSettings) : Nat :=
  let moves := (d.tapSettings t).moves n
  if moves && d.tapInUse t then rcInUse
  else if moves && d.tapListening t then rcInUse
  else if d.lineTapTaken t n then rcConflict
  else rcOk

/-- R26, R28: PLANT attention for a SET-TAP: the class changes on a tap that was LINE-IN and still is (log 23). -/
def Tap.plantAtSetting (old new : Tap) : Bool :=
  old.settings.fn == .lineIn && new.settings.fn == .lineIn && old.lightClass != new.lightClass

/-- R28: the settings written. -/
def Device.putTap (d : Device) (t : Fin 16) (n : TapSettings) : Device :=
  let old := d.taps.get t
  let new := { old with settings := n }
  let d := { d with taps := d.taps.set t new }
  if old.plantAtSetting new then d.raiseLine .plant else d

/-- R27: SET-TAP. -/
def Device.setTap (p : Fin 4) (body : List Byte) (d : Device) : Device :=
  if h : byteAt body 0 < 16 then
    match tapSettingsAt body 1 with
    | none => d.respond p 0x30 rcBadArgument []
    | some n =>
      let t : Fin 16 := ⟨byteAt body 0, h⟩
      let rc := d.judgeTap t n
      if rc = rcOk then Device.arbitrate d false ((d.putTap t n).respond p 0x30 rcOk [])
      else d.respond p 0x30 rc []
  else d.respond p 0x30 rcBadArgument []

/-- R27: a SET-TAP request. -/
def Device.setTapRequest (p : Fin 4) (body : List Byte) (d : Device) : Device :=
  d.request ⟨0x30, true, false⟩ p (body.length == 8) (Device.setTap p body)

/-- SET_TAP. -/
def execSetTap (p : Fin 4) (body : List Byte) (s : State) : Host.Outcome State Fault Refusal :=
  s.on (Device.setTapRequest p body)

/-! ### Applying an image (R179) -/

/-- R150: the HELLO of a link as it goes out. -/
def helloBytes (node : Nat) (g : Fin 4) : List Byte := wireBytes (.hello node g.val)

/-- R147, R150, R179: a link at the application of an image. -/
def Link.configured (now node : Nat) (g : Fin 4) (enabled : Bool) (l : Link) : Link :=
  if enabled then { l with state := .down, sent := helloBytes node g, helloDue := now + seconds 1 } else l

/-- R160, R165, R179: each port takes its notify mode and mask, and the rest of the context of one that the image makes OFF
is as the last reset made it (log 39). That a LINE or TENANT port keeps the cursor, the pending response and DROPPED that
it got while the part was UNCONFIGURED is the model's reading (log 40). -/
def PortCtx.configured (role : Role) (n : NotifyDefault) (x : PortCtx) : PortCtx :=
  { (if role = .off then { PortCtx.reset with shifted := x.shifted } else x) with
    mode := n.mode, mask := n.mask, pulse := none }

/-- R179: a valid image applied, in one event and without attention. The clock keeps what the reset left: a line that is
high when it becomes PPS-IN is no edge (log 32). -/
def Device.applyImage (d : Device) (im : Image) : Device :=
  let d := { d with
    running := some im.settings
    loading := false
    ports := d.ports.mapIdx fun p (x : PortCtx) => x.configured (im.settings.roles.get p) (im.settings.notify.get p)
    taps := d.taps.mapIdx fun t (x : Tap) => { x with settings := im.taps.get t }
    links := d.links.mapIdx fun g (l : Link) =>
      l.configured d.now im.settings.nodeId g (im.settings.degrees.get g).enabled }
  d.onClock fun c => { c with ppsDeadline := if d.ppsAssigned then some (d.now + seconds 2) else none }

/-! ### CONFIGURE (R179) -/

/-- R179: the response to CONFIGURE is discarded where the image makes the port OFF. -/
def Device.respondUnlessOff (d : Device) (p : Fin 4) (code : Nat) : Device :=
  if d.served p then d.respond p code rcOk [] else d

/-- R179: CONFIGURE. -/
def Device.configure (p : Fin 4) (body : List Byte) (d : Device) : Device :=
  if d.configured then d.respond p 0x38 rcWrongState []
  else match parseImage body with
    | none => d.respond p 0x38 rcBadArgument []
    | some im => (d.applyImage im).respondUnlessOff p 0x38

/-- R179: a CONFIGURE request. -/
def Device.configureRequest (p : Fin 4) (body : List Byte) (d : Device) : Device :=
  d.request ⟨0x38, false, true⟩ p (body.length == 164) (Device.configure p body)

/-- CONFIGURE. -/
def execConfigure (p : Fin 4) (body : List Byte) (s : State) : Host.Outcome State Fault Refusal :=
  s.on (Device.configureRequest p body)

/-! ### STORE-CONFIG and its end (R180) -/

/-- R180: the image a store writes: the settings last applied, the tap settings as they stand, and the pending node id
if present. -/
def Device.imageToStore (d : Device) (g : Settings) : Image where
  settings := { g with nodeId := d.pendingNode.getD g.nodeId }
  taps := d.taps.mapIdx fun _ t => t.settings

/-- R163, R180: STORE-CONFIG. The magic word in the EEPROM is overwritten first. -/
def Device.storeConfig (p : Fin 4) (d : Device) : Device :=
  if d.storing.isSome then d.respond p 0x39 rcWrongState []
  else match d.running with
    | none => d
    | some g => { d with storing := some ⟨p, imageBytes (d.imageToStore g)⟩, eeprom := .spoiled }

/-- R180: a STORE-CONFIG request. -/
def Device.storeConfigRequest (p : Fin 4) (body : List Byte) (d : Device) : Device :=
  d.request ⟨0x39, true, false⟩ p (body.length == 0) (Device.storeConfig p)

/-- STORE_CONFIG. -/
def execStoreConfig (p : Fin 4) (body : List Byte) (s : State) : Host.Outcome State Fault Refusal :=
  s.on (Device.storeConfigRequest p body)

/-- R180: the end of a store, with the stage that failed if one did. -/
def Device.storeEnds (failedStage : Option (Fin 5)) (d : Device) : Device :=
  match d.storing with
  | none => d
  | some st =>
    match failedStage with
    | none => Device.respond { d with storing := none, eeprom := .stored st.bytes } st.port 0x39 rcOk []
    | some stage =>
      (Device.respond { d with storing := none, eeprom := .spoiled } st.port 0x39 rcStoreFailed []).raiseCheck
        (.storeFailed stage)

/-- STORE_END. -/
def execStoreEnd (failedStage : Option (Fin 5)) (s : State) : Host.Outcome State Fault Refusal :=
  s.on (unlessReset (Device.storeEnds failedStage))

/-! ### SET-NODE-ID (R181) -/

/-- R181: SET-NODE-ID. -/
def Device.setNodeId (p : Fin 4) (body : List Byte) (d : Device) : Device :=
  let v := fieldAt body 0 2
  if inRange 1 v 65534 then Device.respond { d with pendingNode := some v } p 0x3A rcOk []
  else d.respond p 0x3A rcBadArgument []

/-- R181: a SET-NODE-ID request. -/
def Device.setNodeIdRequest (p : Fin 4) (body : List Byte) (d : Device) : Device :=
  d.request ⟨0x3A, true, false⟩ p (body.length == 2) (Device.setNodeId p body)

/-- SET_NODE_ID. -/
def execSetNodeId (p : Fin 4) (body : List Byte) (s : State) : Host.Outcome State Fault Refusal :=
  s.on (Device.setNodeIdRequest p body)

/-! ### The resets (R178, R181) -/

/-- R43: what a line reset leaves of the clock. The instant of the divider's next tick stays too: after a reset taken while
the source was PPS it is one second after the last edge, even where that has passed, which is the model's choice
(log 27). -/
def Clock.lineReset (c : Clock) : Clock :=
  { c with
    held := false, pendingTick := false, source := .internal, ppsLost := false
    holdDeadline := none, ppsDeadline := none }

/-- R178: a line reset: everything but the clock's kept values, the time base, the world outside and the EEPROM goes to
its power-on value. -/
def Device.lineReset (d : Device) : Device :=
  { Device.powerOn with
    now := d.now, draws := d.draws, rst := d.rst, lineIn := d.lineIn, eeprom := d.eeprom
    clock := d.clock.lineReset }

/-- R181: RESTART, a line reset with the load at once, and no response. -/
def Device.restart (d : Device) : Device := { d.lineReset with loading := true }

/-- R181: a RESTART request. -/
def Device.restartRequest (p : Fin 4) (body : List Byte) (d : Device) : Device :=
  d.request ⟨0x3B, true, false⟩ p (body.length == 0) Device.restart

/-- RESTART. -/
def execRestart (p : Fin 4) (body : List Byte) (s : State) : Host.Outcome State Fault Refusal :=
  s.on (Device.restartRequest p body)

/-- R178: power-on reset; the load begins when the reset ends, at once unless the RST line is asserted. -/
def Device.powerOnReset (d : Device) : Device :=
  { Device.powerOn with
    draws := d.draws, rst := d.rst, lineIn := d.lineIn, eeprom := d.eeprom, loading := !d.rst }

/-- POWER_ON_RESET. -/
def execPowerOnReset (s : State) : Host.Outcome State Fault Refusal := s.on Device.powerOnReset

/-- R178: the RST line asserted. -/
def Device.assertReset (d : Device) : Device := { d.lineReset with rst := true }

/-- RST_ASSERTED. -/
def execRstAsserted (s : State) : Host.Outcome State Fault Refusal := s.on Device.assertReset

/-- R178: the RST line released: the reset ends and the load begins. -/
def Device.releaseReset (d : Device) : Device := if d.rst then { d with rst := false, loading := true } else d

/-- RST_RELEASED. -/
def execRstReleased (s : State) : Host.Outcome State Fault Refusal := s.on Device.releaseReset

/-! ### The end of a load (R178) -/

/-- R178, R180: the bytes the load reads: those the command brings for an image written from outside, those of the last
store otherwise; none where the EEPROM does not answer or its image is invalid (log 6). -/
def Device.imageRead (d : Device) (bytes : Option (List Byte)) : Option (List Byte) :=
  match d.eeprom, bytes with
  | _, none => none
  | .fromOutside, some bs => some bs
  | .stored bs, some _ => some bs
  | .spoiled, some _ => none

/-- R178: the end of a load; one that finds the flag clear is discarded. -/
def Device.loadEnds (bytes : Option (List Byte)) (d : Device) : Device :=
  if !d.loading then d
  else match (d.imageRead bytes).bind parseImage with
    | none => { d with loading := false }
    | some im => d.applyImage im

/-- LOAD_END. -/
def execLoadEnd (bytes : Option (List Byte)) (s : State) : Host.Outcome State Fault Refusal :=
  s.on (unlessReset (Device.loadEnds bytes))

end Sys2Proof.Machine
end

