-- ==== Sys2Proof/Machine/FrontEnd.lean ====
section
/-! DEFINITION. What the tap receiver array delivers: power readings and decoded code frames (R25, R26, R33). -/

namespace Sys2Proof.Machine

/-! ### TAP_READING (R25, R26) -/

/-- R26: a reading changes the light class of a LINE-IN tap that had a reading before. -/
def Tap.plantAtReading (old new : Tap) : Bool :=
  old.reading.isSome && new.settings.fn == .lineIn && old.lightClass != new.lightClass

/-- R25: a tap takes a reading; one below the receiver's floor arrives as −600. -/
def Tap.take (r : Int) (t : Tap) : Tap := { t with reading := some r }

/-- R25, R26: the sixteen readings of one delivery. -/
def Device.tapReadings (readings : Table Int 16) (d : Device) : Device :=
  let d' := { d with taps := d.taps.mapIdx fun t (x : Tap) => x.take (readings.get t) }
  if (List.finRange 16).any fun t => (d.taps.get t).plantAtReading (d'.taps.get t) then d'.raiseLine .plant else d'

/-- TAP_READING. -/
def execTapReading (readings : Table Int 16) (s : State) : Host.Outcome State Fault Refusal :=
  s.on (unlessReset (Device.tapReadings readings))

/-! ### CODE_FRAME (R33) -/

/-- R33: a decoded frame offered to the occupied slots of its tap. -/
def Device.offerFrame (t : Fin 16) (channel : Nat) (w : BitVec 30) (level : Int) (d : Device) : Device :=
  { d with taps := d.taps.modify t fun x =>
      { x with slots := x.slots.mapIdx fun _ s => s.map (ListenSlot.offer channel w level) } }

/-- CODE_FRAME. -/
def execCodeFrame (t : Fin 16) (channel : Nat) (w : BitVec 30) (level : Int) (s : State) :
    Host.Outcome State Fault Refusal :=
  s.on (unlessReset (Device.offerFrame t channel w level))

end Sys2Proof.Machine
end

