-- ==== Sys2Proof/WellFormed.lean ====
section
/-! DEFINITION. Which commands the outside can send: the ranges R187 and the frame layouts give their fields. -/

namespace Sys2Proof

/-- R182, R187: a circuit id fills three bytes and is not 0. -/
def cidOk (cid : Nat) : Bool := 0 < cid && cid < 2 ^ 24

/-- R182: a run id is two fields of two bytes. -/
def RunId.wf (r : RunId) : Bool := r.node < 2 ^ 16 && r.number < 2 ^ 16

/-- R184, R185: a level fills two bytes, of which 8000h is the absent marking. -/
def levelOk (l : Option Int) : Bool := l.all fun v => -32768 < v && v < 32768

/-- R185, R187: a hop result as the link carries it; the stray tap is one byte, of which FFh is the absent marking. -/
def HopResult.wf (h : HopResult) : Bool :=
  h.hop < 16 && h.node < 2 ^ 16 && levelOk h.inLevel && levelOk h.outLevel && h.stray.all (· < 255)

/-- R185: what a fault site carries fills one byte. -/
def FaultSite.wf : FaultSite → Bool
  | .stray tap => tap < 256
  | .add => true
  | .span => true
  | .node => true
  | .peer _ => true

/-- R186, R187: the fields of an OUTCOME. -/
def RunOutcome.wf (o : RunOutcome) : Bool :=
  cidOk o.cid && o.run.wf && o.faultHop.all (· < 16) && o.site.all FaultSite.wf

/-- R187: a message is well formed when each field lies in the range its layout gives it.
The fields the run rules judge (the dwell, the hop order) are left to them. -/
def Message.wf : Message → Bool
  | .announce cid run _ hop n dwell =>
    cidOk cid && run.wf && hop < 16 && (2 ≤ n && n ≤ 16) && dwell < 256
  | .armed cid run => cidOk cid && run.wf
  | .stop cid run => cidOk cid && run.wf
  | .report cid run _ hops =>
    cidOk cid && run.wf && (1 ≤ hops.length && hops.length ≤ 16) && hops.all HopResult.wf
  | .refuse cid run hop _ => cidOk cid && run.wf && hop < 16
  | .cancel cid run => cidOk cid && run.wf
  | .outcome o => o.wf
  | .request cid _ => cidOk cid

/-- R162, R183: the body of a request whose frame is whole is at most 250 bytes long. -/
def bodyOk (body : List Byte) : Bool := body.length ≤ 250

/-- The commands the outside can send. -/
def Instr.wf : Instr → Bool
  | .spiTransaction _ _ => true
  | .undecodedRequest _ _ => true
  | .status _ b => bodyOk b
  | .seek _ b => bodyOk b
  | .read _ b => bodyOk b
  | .readChanges _ b => bodyOk b
  | .ackAttention _ b => bodyOk b
  | .setNotify _ b => bodyOk b
  | .clearCheck _ b => bodyOk b
  | .portReset _ b => bodyOk b
  | .registerCircuit _ b => bodyOk b
  | .editCircuit _ b => bodyOk b
  | .deleteCircuit _ b => bodyOk b
  | .requestPermit _ b => bodyOk b
  | .confirm _ b => bodyOk b
  | .verify _ b => bodyOk b
  | .baseline _ b => bodyOk b
  | .commitBaseline _ b => bodyOk b
  | .discardBaseline _ b => bodyOk b
  | .clearBaseline _ b => bodyOk b
  | .scheduleWindow _ b => bodyOk b
  | .extendWindow _ b => bodyOk b
  | .closeWindow _ b => bodyOk b
  | .withdrawWindow _ b => bodyOk b
  | .holdClock _ b => bodyOk b
  | .releaseClock _ b => bodyOk b
  | .setClock _ b => bodyOk b
  | .alignClock _ b => bodyOk b
  | .setTap _ b => bodyOk b
  | .configure _ b => bodyOk b
  | .storeConfig _ b => bodyOk b
  | .storeEnd _ => true
  | .setNodeId _ b => bodyOk b
  | .restart _ b => bodyOk b
  | .powerOnReset => true
  | .rstAsserted => true
  | .rstReleased => true
  | .loadEnd bytes => bytes.all fun b => b.length = 164
  | .clockTick => true
  | .ppsEdge _ _ => true
  | .ppsLost => true
  | .holdLimit => true
  | .requestTimer _ => true
  | .tapReading readings => readings.cells.all fun v => -600 ≤ v
  | .codeFrame _ channel _ _ => 1 ≤ channel && channel ≤ 96
  | .freezeInChange _ _ => true
  | .eligibleAfter _ _ => true
  | .preemptTime _ _ => true
  | .announce _ cid run kind hop n d => (Message.announce cid run kind hop n d).wf
  | .armed _ cid run => (Message.armed cid run).wf
  | .armedWait _ => true
  | .dwell _ => true
  | .stop _ cid run => (Message.stop cid run).wf
  | .stopWait _ => true
  | .report _ cid run truncated hops => (Message.report cid run truncated hops).wf
  | .reportWait _ => true
  | .refuse _ cid run hop reason => (Message.refuse cid run hop reason).wf
  | .outcome _ o => o.wf
  | .outcomeWait _ => true
  | .cancel _ cid run => (Message.cancel cid run).wf
  | .request _ cid kind => (Message.request cid kind).wf
  | .hello _ node degree => node < 2 ^ 16 && degree < 4
  | .frameDiscarded _ _ => true
  | .silenceDeadline _ => true
  | .helloPeriod _ => true
  | .linkTransmit _ => true
  | .notifyPulseEnd _ => true

end Sys2Proof
end

