-- ==== Sys2Proof/Machine/RunMessages.lean ====
section
/-! DEFINITION. The peer messages of the probe runs (R106, R110 to R126). -/

namespace Sys2Proof.Machine

/-! ### Reception (R148, R149) -/

/-- R148: a state in which a valid frame moves the silence deadline. -/
def LinkState.hears : LinkState → Bool
  | .probing => true
  | .up => true
  | .miswired => true
  | .disabled => false
  | .down => false

/-- R148: a valid frame's effect on the silence deadline. -/
def Link.heard (now : Nat) (l : Link) : Link :=
  if l.state.hears then { l with silence := some (now + seconds 3) } else l

/-- R148: a valid frame on a link. -/
def Device.heard (d : Device) (g : Fin 4) : Device := d.link g (·.heard d.now)

/-- R149, R187: a valid frame with one of the eight messages: it moves the silence deadline, and a well-formed message
on an UP link is handed to the Run Engine. -/
def Device.receive (g : Fin 4) (m : Message) (f : Device → Device) (d : Device) : Device :=
  let d' := d.heard g
  if m.wf && (d.links.get g).state == .up then f d' else d'

/-! ### Matching a message to a run (R106) -/

/-- R106: the run that a message is for, with its slot: both ids, and the degree the message must arrive on. -/
def Device.matched (d : Device) (cid : Nat) (run : RunId) (side : Run → Option (Fin 4)) (g : Fin 4) :
    Option (Fin 32 × Run) :=
  (d.findRun cid run).bind fun slot => ((d.runs.get slot).filter fun r => side r == some g).map fun r => (slot, r)

/-- R106: a message that finds no run is discarded. -/
def Device.onMatched (d : Device) (cid : Nat) (run : RunId) (side : Run → Option (Fin 4)) (g : Fin 4)
    (f : Fin 32 → Run → Device) : Device :=
  match d.matched cid run side g with
  | none => d
  | some (slot, r) => f slot r

/-- R104: a run enters a phase and starts its timer. -/
def Device.enter (d : Device) (slot : Fin 32) (phase : Phase) (wait : Nat) : Device :=
  d.onRun slot fun r => { r with phase, deadline := d.now + wait }

/-! ### ANNOUNCE (R110 to R113) -/

/-- R110: role, k, n, ingress degree and dwell agree with the ANNOUNCE. -/
def Circuit.fits (c : Circuit) (g : Fin 4) (hop n dwell : Nat) : Bool :=
  c.desc.role != .head && c.desc.k == hop && c.desc.n == n && c.desc.ingress == .degree g && inRange 1 dwell 20

/-- R110, R111: the part as an accepted ANNOUNCE would find it, the circuit's older run freed. -/
def Device.withoutRun (d : Device) (i : Fin 256) : Device :=
  match d.runOf i with
  | none => d
  | some slot => d.freeRun slot

/-- R110: the BUSY test. -/
def Device.hasRoom (d : Device) (i : Fin 256) (c : Desc) : Bool :=
  (d.withoutRun i).runs.firstFree.isSome && (d.withoutRun i).canListen c

/-- R110: the link of the egress degree of a TRANSIT record is UP. -/
def Device.spanUp (d : Device) (c : Desc) : Bool :=
  c.role != .transit || c.egress.degree?.any fun g => (d.links.get g).state == .up

/-- R110: the reason an ANNOUNCE is refused for, with the hop of the REFUSE. -/
def Device.announceRefusal (d : Device) (g : Fin 4) (i : Fin 256) (c : Circuit) (hop n dwell : Nat) :
    Option (Reason × Nat) :=
  if !c.fits g hop n dwell then some (.mismatch, hop)
  else if c.service = .held then some (.held, hop)
  else if !d.hasRoom i c.desc then some (.busy, hop)
  else if !d.spanUp c.desc then some (.linkDown, hop + 1)
  else none

/-- R112, R113: the run an accepted ANNOUNCE opens. -/
def announcedRun (d : Device) (i : Fin 256) (c : Circuit) (run : RunId) (kind : Kind) (dwell : Nat) : Run where
  id := run
  circuit := i
  kind := kind
  role := c.desc.role
  k := c.desc.k
  n := c.desc.n
  phase := if c.desc.role = .transit then .arming else .listening
  up := c.upstream
  down := c.desc.egress.degree?
  dwell := dwell
  deadline := d.now + if c.desc.role = .transit then d.armedWait c.desc.k c.desc.n else d.stopWait dwell
  listen := .opened
  own := none
  hopList := ⟨[], false⟩

/-- R112, R113: what an accepted ANNOUNCE sends. -/
def Device.passAnnounce (d : Device) (c : Circuit) (run : RunId) (kind : Kind) (dwell : Nat) : Device :=
  if c.desc.role = .transit then
    d.sendOpt c.desc.egress.degree? (.announce c.cid run kind (c.desc.k + 1) c.desc.n dwell)
  else d.sendOpt c.upstream (.armed c.cid run)

/-- R111 to R113: an ANNOUNCE accepted: the older run freed, the new one opened, its slots claimed, attached. -/
def Device.accept (d : Device) (i : Fin 256) (c : Circuit) (run : RunId) (kind : Kind) (dwell : Nat) : Device :=
  let d := d.withoutRun i
  match d.runs.firstFree with
  | none => d
  | some slot =>
    let d' := { d with runs := d.runs.set slot (some (announcedRun d i c run kind dwell)) }
    ((d'.claim slot c.cid c.desc).attach i run kind).passAnnounce c run kind dwell

/-- R110: an ANNOUNCE judged and refused, or accepted. -/
def Device.announced (g : Fin 4) (cid : Nat) (run : RunId) (kind : Kind) (hop n dwell : Nat) (d : Device) : Device :=
  match d.findCid cid with
  | none => d.send g (.refuse cid run hop .unknown)
  | some i =>
    match d.circuit i with
    | none => d
    | some c =>
      match d.announceRefusal g i c hop n dwell with
      | some (reason, at') => d.send g (.refuse cid run at' reason)
      | none =>
        let d' := d.accept i c run kind dwell
        if (d.runOf i).isSome then Device.arbitrate d false d' else d'

/-- ANNOUNCE. -/
def execAnnounce (g : Fin 4) (cid : Nat) (run : RunId) (kind : Kind) (hop n dwell : Nat) (s : State) :
    Host.Outcome State Fault Refusal :=
  s.on (unlessReset
    (Device.receive g (.announce cid run kind hop n dwell) (Device.announced g cid run kind hop n dwell)))

/-! ### ARMED (R114) -/

/-- R114: ARMED taken by a run. -/
def Device.takeArmed (d : Device) (slot : Fin 32) (r : Run) : Device :=
  match r.role, r.phase with
  | .transit, .arming =>
    (d.sendOpt r.up (.armed (d.cidOf r.circuit) r.id)).enter slot .listening (d.stopWait r.dwell)
  | .head, .announcing =>
    match d.circuit r.circuit with
    | none => d
    | some c => (d.drive slot c).enter slot .injecting (r.dwell * 100)
  | _, _ => d

/-- R114: ARMED arrives. -/
def Device.armedArrives (g : Fin 4) (cid : Nat) (run : RunId) (d : Device) : Device :=
  d.onMatched cid run (·.down) g d.takeArmed

/-- ARMED. -/
def execArmed (g : Fin 4) (cid : Nat) (run : RunId) (s : State) : Host.Outcome State Fault Refusal :=
  s.on (unlessReset (Device.receive g (.armed cid run) (Device.armedArrives g cid run)))

/-! ### STOP (R117) -/

/-- The own hop result of a run, as a list. -/
def Device.ownList (d : Device) (slot : Fin 32) : List HopResult := ((d.runs.get slot).bind (·.own)).toList

/-- R117, R119, R121: a REPORT sent upstream, and the wait for the OUTCOME begun. -/
def Device.report (d : Device) (slot : Fin 32) (r : Run) (truncated : Bool) (hops : List HopResult) : Device :=
  (d.sendOpt r.up (.report (d.cidOf r.circuit) r.id truncated hops)).enter slot .awaitingOutcome d.outcomeWait

/-- R117: STOP taken by a run in LISTENING. -/
def Device.takeStop (d : Device) (slot : Fin 32) (r : Run) : Device :=
  match r.role, r.phase with
  | .transit, .listening =>
    let d := (d.sendOpt r.down (.stop (d.cidOf r.circuit) r.id)).closeListen slot
    d.enter slot .reporting (d.reportWait r.k r.n)
  | .tail, .listening =>
    let d := d.closeListen slot
    d.report slot r false (d.ownList slot)
  | _, _ => d

/-- R117: STOP arrives; the listen slots it frees can make a grant possible (R94). -/
def Device.stopArrives (g : Fin 4) (cid : Nat) (run : RunId) (d : Device) : Device :=
  d.onMatched cid run (·.up) g fun slot r =>
    if r.phase = .listening then Device.arbitrate d false (d.takeStop slot r) else d

/-- STOP. -/
def execStop (g : Fin 4) (cid : Nat) (run : RunId) (s : State) : Host.Outcome State Fault Refusal :=
  s.on (unlessReset (Device.receive g (.stop cid run) (Device.stopArrives g cid run)))

/-! ### REPORT (R119, R120) -/

/-- R119: the results are for the hops from `k` on, one after another. -/
def inOrder : Nat → List HopResult → Bool
  | _, [] => true
  | k, h :: rest => h.hop == k && inOrder (k + 1) rest

/-- R119: a REPORT well formed for the receiver at hop k of a path of n. -/
def reportFits (k n : Nat) (hops : List HopResult) : Bool :=
  !hops.isEmpty && inOrder (k + 1) hops && k + hops.length + 1 ≤ n

/-- R120, R121: the head's hop list set before the run ends. -/
def Device.setHopList (d : Device) (slot : Fin 32) (l : HopList) : Device := d.onRun slot fun r => { r with hopList := l }

/-- R120: the head ends a run on the hop list it holds. -/
def Device.endOnList (d : Device) (slot : Fin 32) (r : Run) (l : HopList) : Device :=
  (d.setHopList slot l).endHead slot (classify l r.n) false

/-- R119, R120: a REPORT arrives. -/
def Device.reportArrives (g : Fin 4) (cid : Nat) (run : RunId) (truncated : Bool) (hops : List HopResult) (d : Device) :
    Device :=
  d.onMatched cid run (·.down) g fun slot r =>
    if !reportFits r.k r.n hops then d
    else match r.role, r.phase with
      | .transit, .reporting => d.report slot r truncated (d.ownList slot ++ hops)
      | .head, .collecting =>
        Device.arbitrate d false (d.endOnList slot r ⟨d.ownList slot ++ hops, truncated⟩)
      | _, _ => d

/-- REPORT. -/
def execReport (g : Fin 4) (cid : Nat) (run : RunId) (truncated : Bool) (hops : List HopResult) (s : State) :
    Host.Outcome State Fault Refusal :=
  s.on (unlessReset
    (Device.receive g (.report cid run truncated hops) (Device.reportArrives g cid run truncated hops)))

/-! ### REFUSE (R122) -/

/-- R122: a REFUSE taken by a run. -/
def Device.takeRefuse (d : Device) (slot : Fin 32) (r : Run) (hop : Nat) (reason : Reason) : Device :=
  match r.role with
  | .head => d.endHead slot (refusalFinding hop reason) true
  | .transit =>
    let d := d.sendOpt r.up (.refuse (d.cidOf r.circuit) r.id hop reason)
    if r.phase = .awaitingOutcome then d
    else (d.giveUpListen slot).enter slot .awaitingOutcome d.outcomeWait
  | .tail => d

/-- R122: a REFUSE arrives. -/
def Device.refuseArrives (g : Fin 4) (cid : Nat) (run : RunId) (hop : Nat) (reason : Reason) (d : Device) : Device :=
  d.onMatched cid run (·.down) g fun slot r => Device.arbitrate d false (d.takeRefuse slot r hop reason)

/-- REFUSE. -/
def execRefuse (g : Fin 4) (cid : Nat) (run : RunId) (hop : Nat) (reason : Reason) (s : State) :
    Host.Outcome State Fault Refusal :=
  s.on (unlessReset (Device.receive g (.refuse cid run hop reason) (Device.refuseArrives g cid run hop reason)))

/-! ### OUTCOME (R123) -/

/-- R123: an OUTCOME taken by a transit or tail run. -/
def Device.takeOutcome (d : Device) (slot : Fin 32) (r : Run) (o : RunOutcome) : Device :=
  ((d.sendOpt r.down (.outcome o)).applyOutcome r.circuit o none).dropRun slot

/-- R123: an OUTCOME that matches no run, passed on by a TRANSIT record where it arrived on the ingress degree. -/
def Device.passOutcome (d : Device) (g : Fin 4) (o : RunOutcome) : Device :=
  match (d.findCid o.cid).bind d.circuit with
  | none => d
  | some c =>
    if c.desc.role = .transit ∧ c.desc.ingress = .degree g then d.sendOpt c.desc.egress.degree? (.outcome o) else d

/-- R123: an OUTCOME arrives. -/
def Device.outcomeArrives (g : Fin 4) (o : RunOutcome) (d : Device) : Device :=
  match d.matched o.cid o.run (·.up) g with
  | none => d.passOutcome g o
  | some (slot, r) => Device.arbitrate d false (d.takeOutcome slot r o)

/-- OUTCOME. -/
def execOutcome (g : Fin 4) (o : RunOutcome) (s : State) : Host.Outcome State Fault Refusal :=
  s.on (unlessReset (Device.receive g (.outcome o) (Device.outcomeArrives g o)))

/-! ### CANCEL (R125) -/

/-- R118, R125: CANCEL downstream where there is a downstream degree, and the run freed. -/
def Device.cancelDown (d : Device) (slot : Fin 32) (r : Run) : Device :=
  (d.sendOpt r.down (.cancel (d.cidOf r.circuit) r.id)).dropRun slot

/-- R125: a CANCEL arrives. -/
def Device.cancelArrives (g : Fin 4) (cid : Nat) (run : RunId) (d : Device) : Device :=
  d.onMatched cid run (·.up) g fun slot r => Device.arbitrate d false (d.cancelDown slot r)

/-- CANCEL. -/
def execCancel (g : Fin 4) (cid : Nat) (run : RunId) (s : State) : Host.Outcome State Fault Refusal :=
  s.on (unlessReset (Device.receive g (.cancel cid run) (Device.cancelArrives g cid run)))

/-! ### REQUEST (R91, R126) -/

/-- R88: the class the queue gives a peer REQUEST. -/
def requestClass : Kind → QClass
  | .verify => .high
  | .baseline => .normal

/-- R91, R126: a REQUEST taken by a circuit record. -/
def Device.takeRequest (d : Device) (i : Fin 256) (c : Circuit) (kind : Kind) : Device :=
  match c.desc.role with
  | .head => Device.arbitrate d false (d.enqueue i kind (requestClass kind))
  | .transit => d.sendOpt c.upstream (.request c.cid kind)
  | .tail => d

/-- R126: a REQUEST arrives. -/
def Device.requestArrives (g : Fin 4) (cid : Nat) (kind : Kind) (d : Device) : Device :=
  match d.findCid cid with
  | none => d
  | some i =>
    match d.circuit i with
    | none => d
    | some c => if c.desc.egress = .degree g then d.takeRequest i c kind else d

/-- REQUEST. -/
def execRequest (g : Fin 4) (cid : Nat) (kind : Kind) (s : State) : Host.Outcome State Fault Refusal :=
  s.on (unlessReset (Device.receive g (.request cid kind) (Device.requestArrives g cid kind)))

end Sys2Proof.Machine
end

