-- ==== Sys2Proof/Machine/LinkEvents.lean ====
section
/-! DEFINITION. The peer links: HELLO, silence, transmission, the loss of a link, and discarded frames (R127, R128,
R147 to R158). -/

namespace Sys2Proof.Machine

/-! ### A link leaves UP (R127, R128, R158) -/

/-- R127, R128: the run uses the degree. -/
def Run.usesDegree (g : Fin 4) (r : Run) : Bool := r.up == some g || r.down == some g

/-- A run slot put into its place in the order that the free rank gives (log 16). -/
def insertRank (rank : Fin 32 → Nat) (s : Fin 32) : List (Fin 32) → List (Fin 32)
  | [] => [s]
  | x :: rest => if rank s < rank x then s :: x :: rest else x :: insertRank rank s rest

/-- R127, R128: the run slots that use a degree, in an order that is open (log 16). -/
def Device.affected (d : Device) (g : Fin 4) : List (Fin 32) :=
  (d.runs.indices fun r => r.any (Run.usesDegree g)).foldl (fun acc s => insertRank (Config.lossRank d.now) s acc) []

/-- R128: the downstream link of a run is lost. -/
def Device.loseDown (d : Device) (slot : Fin 32) (r : Run) : Device :=
  match r.phase with
  | .arming => (d.sendOpt r.up (.refuse (d.cidOf r.circuit) r.id (r.k + 1) .linkDown)).dropRun slot
  | .listening => (d.sendOpt r.up (.refuse (d.cidOf r.circuit) r.id (r.k + 1) .linkDown)).dropRun slot
  | .reporting => d.report slot r true (d.ownList slot)
  | .awaitingOutcome => d
  | .announcing => d.endHead slot ⟨.incomplete, some 1, some (.peer .linkDown)⟩ true
  | .injecting => d.endHead slot ⟨.incomplete, some 1, some (.peer .linkDown)⟩ true
  | .collecting => d.endHead slot ⟨.incomplete, some 1, some (.peer .linkDown)⟩ true

/-- R127, R128: one run acts on the loss of a link it uses. -/
def Device.loseLink (g : Fin 4) (d : Device) (slot : Fin 32) : Device :=
  match d.runs.get slot with
  | none => d
  | some r =>
    if r.up = some g then d.cancelDown slot r
    else if r.down = some g then d.loseDown slot r
    else d

/-- R158: the Run Engine is told that a link has left UP. -/
def Device.linkLost (d : Device) (g : Fin 4) : Device :=
  Device.arbitrate d false ((d.affected g).foldl (Device.loseLink g) d)

/-! ### HELLO (R150 to R155) -/

/-- R151: a good HELLO agrees with the id the link accepts. -/
def Device.helloAgrees (d : Device) (g : Fin 4) (node : Nat) : Bool :=
  let l := d.links.get g
  node != d.nodeId &&
    (if d.expected g ≠ 0 then node == d.expected g
     else match l.state with
      | .down => true
      | _ => l.seenId == some node)

/-- R150: a HELLO is good: its node id lies in 1..65534 (its degree in 0..3 by R187). -/
def helloGood (node degree : Nat) : Bool := inRange 1 node 65534 && degree < 4

/-- R154: the id a link was accepting when a HELLO disagreed. -/
def Device.accepting (d : Device) (g : Fin 4) : Nat :=
  let l := d.links.get g
  if d.expected g ≠ 0 then d.expected g
  else match l.state with
    | .down => 0
    | _ => l.seenId.getD 0

/-- R150: every good HELLO writes the neighbour id and degree seen. -/
def Link.see (node degree : Nat) (l : Link) : Link :=
  { l with seenId := some node, seenDegree := some (Fin.ofNat 4 degree) }

/-- R152, R155: one more agreeing HELLO; the third takes the link UP. -/
def Link.agree (l : Link) : Link :=
  if l.agreeing + 1 < 3 then { l with agreeing := l.agreeing + 1 } else { l with agreeing := 3, state := .up }

/-- R152: a link in DOWN hears a HELLO that agrees. -/
def Link.probe (now : Nat) (l : Link) : Link :=
  { l with state := .probing, agreeing := 1, silence := some (now + seconds 3) }

/-- R154, R157: a link goes to MISWIRED; its queue is empty. -/
def Link.miswire (now : Nat) (l : Link) : Link :=
  { l with state := .miswired, agreeing := 0, silence := some (now + seconds 3), queue := [] }

/-- R159: a link changed, with PLANT attention if its state is another. -/
def Device.linkWithPlant (d : Device) (g : Fin 4) (f : Link → Link) : Device :=
  let d' := d.link g f
  if (d'.links.get g).state = (d.links.get g).state then d' else d'.raiseLine .plant

/-- R152, R155: an agreeing HELLO. -/
def Device.helloAgreed (d : Device) (g : Fin 4) : Device :=
  match (d.links.get g).state with
  | .disabled => d
  | .down => d.linkWithPlant g (·.probe d.now)
  | .probing => d.linkWithPlant g Link.agree
  | .up => d
  | .miswired => d.linkWithPlant g Link.agree

/-- R154: a disagreeing HELLO takes a link to MISWIRED with a check. -/
def Device.miswire (d : Device) (g : Fin 4) (node degree accepting : Nat) : Device :=
  (d.linkWithPlant g (·.miswire d.now)).raiseCheck (.neighbourMismatch g node degree accepting)

/-- R154, R155: a disagreeing HELLO, with the id the link was accepting. -/
def Device.helloDisagreed (d : Device) (g : Fin 4) (node degree accepting : Nat) : Device :=
  match (d.links.get g).state with
  | .disabled => d
  | .down => d.miswire g node degree accepting
  | .probing => d.miswire g node degree accepting
  | .up => (d.miswire g node degree accepting).linkLost g
  | .miswired => d.link g fun l => { l with agreeing := 0 }

/-- R150 to R155: a HELLO arrives on a link. -/
def Device.helloArrives (g : Fin 4) (node degree : Nat) (d : Device) : Device :=
  if (d.links.get g).state = .disabled then d
  else
    let heard := d.heard g
    if helloGood node degree then
      let seen := heard.link g (·.see node degree)
      if d.helloAgrees g node then seen.helloAgreed g
      else seen.helloDisagreed g node degree (d.accepting g)
    else heard

/-- HELLO. -/
def execHello (g : Fin 4) (node degree : Nat) (s : State) : Host.Outcome State Fault Refusal :=
  s.on (unlessReset (Device.helloArrives g node degree))

/-! ### Silence (R153) -/

/-- R153, R157: a link goes to DOWN. -/
def Link.goDown (l : Link) : Link := { l with state := .down, agreeing := 0, silence := none, queue := [] }

/-- R153: the silence deadline of a link passes. -/
def Device.silencePasses (g : Fin 4) (d : Device) : Device :=
  d.onExpiry (d.links.get g).silence fun d' =>
    let lost := d'.linkWithPlant g Link.goDown
    if (d.links.get g).state = .up then lost.linkLost g else lost

/-- SILENCE_DEADLINE. -/
def execSilenceDeadline (g : Fin 4) (s : State) : Host.Outcome State Fault Refusal :=
  s.on (unlessReset (Device.silencePasses g))

/-! ### Transmission (R150, R157) -/

/-- R150: a HELLO falls due and is the next frame the link sends. -/
def Device.helloDue (g : Fin 4) (d : Device) : Device :=
  let l := d.links.get g
  if l.state = .disabled then d
  else
    (d.reach l.helloDue).link g fun l =>
      { l with sent := wireBytes (.hello d.nodeId g.val), helloDue := l.helloDue + seconds 1 }

/-- HELLO_PERIOD. -/
def execHelloPeriod (g : Fin 4) (s : State) : Host.Outcome State Fault Refusal :=
  s.on (unlessReset (Device.helloDue g))

/-- R157: an UP link begins transmission of its oldest frame, which leaves the queue. -/
def Link.transmit (l : Link) : Link :=
  match l.state, l.queue with
  | .up, m :: rest => { l with queue := rest, sent := wireBytes (.message m) }
  | _, _ => l

/-- LINK_TRANSMIT. -/
def execLinkTransmit (g : Fin 4) (s : State) : Host.Outcome State Fault Refusal :=
  s.on (unlessReset fun d => d.link g Link.transmit)

/-! ### FRAME_DISCARDED (R148, R149, R187) -/

/-- R149: what the Run Engine does with a message handed to it. -/
def Device.dispatch (g : Fin 4) (m : Message) (d : Device) : Device :=
  match m with
  | .announce cid run kind hop n dwell => d.announced g cid run kind hop n dwell
  | .armed cid run => d.armedArrives g cid run
  | .stop cid run => d.stopArrives g cid run
  | .report cid run truncated hops => d.reportArrives g cid run truncated hops
  | .refuse cid run hop reason => d.refuseArrives g cid run hop reason
  | .cancel cid run => d.cancelArrives g cid run
  | .outcome o => d.outcomeArrives g o
  | .request cid kind => d.requestArrives g cid kind

/-- R148, R149: the frame that a start delimiter opens, from the bytes after it: one that is not valid is dropped, a
valid one moves the silence deadline, and one that turns out to be well formed is taken for what it is (log 8). -/
def Device.takeFrame (g : Fin 4) (bytes : List Byte) (d : Device) : Device :=
  match validFrame bytes with
  | none => d
  | some (typ, body) =>
    match parseFrame typ body with
    | none => d.heard g
    | some (.hello node degree) => d.helloArrives g node degree
    | some (.message m) => d.receive g m (Device.dispatch g m)

/-- R148: the bytes that follow a start delimiter on a link: the frame it opens, and after each new delimiter among them
the frame that one opens. -/
def Device.framesArrive (g : Fin 4) (bytes : List Byte) (d : Device) : Device :=
  (bytes :: framesIn bytes).foldl (fun d rest => unlessReset (Device.takeFrame g rest) d) d

/-- FRAME_DISCARDED. -/
def execFrameDiscarded (g : Fin 4) (bytes : List Byte) (s : State) : Host.Outcome State Fault Refusal :=
  s.on (Device.framesArrive g bytes)

end Sys2Proof.Machine
end

