-- ==== Sys2Proof/Machine/PortCommands.lean ====
section
/-! DEFINITION. Transactions and the port commands (R161 to R175). -/

namespace Sys2Proof.Machine

/-! ### SPI_TRANSACTION (R161) -/

/-- R161: filler bytes, each a free value (log 9). -/
def fillerBytes (draw n : Nat) : List Byte := (List.range n).map fun j => Config.fillerByte (draw + j)

/-- R161: the bytes a port has to shift out, the status byte and the pending response. -/
def Device.outgoing (d : Device) (p : Fin 4) : List Byte := d.statusByte p :: (d.ports.get p).response.getD []

/-- R161: the part that comes after the status byte and the response. -/
def Device.fillerCount (d : Device) (p : Fin 4) (clocked : Nat) : Nat := clocked - (d.outgoing p).length

/-- R161: a transaction in which the master clocks a number of bytes. -/
def Device.transaction (p : Fin 4) (clocked : Nat) (d : Device) : Device :=
  if d.rst || !d.served p || clocked == 0 then d
  else
    let out := d.outgoing p
    let extra := d.fillerCount p clocked
    Device.port { d with draws := d.draws + extra } p fun x =>
      { x with
        shifted := out.take clocked ++ fillerBytes d.draws extra
        dropped := false
        response := if out.length ≤ clocked then none else x.response }

/-- SPI_TRANSACTION. -/
def execSpiTransaction (p : Fin 4) (clocked : Nat) (s : State) : Host.Outcome State Fault Refusal :=
  s.on (Device.transaction p clocked)

/-! ### STATUS, SEEK, READ (R167 to R169) -/

/-- R167: STATUS. -/
def Device.statusRequest (p : Fin 4) (body : List Byte) (d : Device) : Device :=
  d.request ⟨0x01, false, true⟩ p (body.length == 0) fun d => d.respond p 0x01 rcOk (d.statusBytes p)

/-- STATUS. -/
def execStatus (p : Fin 4) (body : List Byte) (s : State) : Host.Outcome State Fault Refusal :=
  s.on (Device.statusRequest p body)

/-- R168: a TENANT port may not name the CHECK table. -/
def Device.seekForbidden (d : Device) (p : Fin 4) (t : TableName) : Bool :=
  d.role p == some .tenant && t == .check

/-- R168: the answer to a SEEK; the order of its two tests is open (log 17). -/
def Device.seekCode (d : Device) (p : Fin 4) (t : TableName) (index : Nat) : Nat :=
  let bad := !(decide (index < tableSize t))
  if Config.seekJudgesRightFirst then
    if d.seekForbidden p t then rcNotPermitted else if bad then rcBadArgument else rcOk
  else if bad then rcBadArgument
  else if d.seekForbidden p t then rcNotPermitted
  else rcOk

/-- R168: SEEK. -/
def Device.seek (p : Fin 4) (body : List Byte) (d : Device) : Device :=
  match tableNameTable[byteAt body 0]? with
  | none => d.respond p 0x02 rcBadArgument []
  | some t =>
    let index := fieldAt body 1 2
    let rc := d.seekCode p t index
    let d := if rc = rcOk then d.port p fun x => { x with table := t, index } else d
    d.respond p 0x02 rc []

/-- R168: a SEEK request. -/
def Device.seekRequest (p : Fin 4) (body : List Byte) (d : Device) : Device :=
  d.request ⟨0x02, false, true⟩ p (body.length == 3) (Device.seek p body)

/-- SEEK. -/
def execSeek (p : Fin 4) (body : List Byte) (s : State) : Host.Outcome State Fault Refusal :=
  s.on (Device.seekRequest p body)

/-- R169: READ. -/
def Device.read (p : Fin 4) (d : Device) : Device :=
  let out := d.readBody p
  let d := if out.2 then d.port p fun x => { x with index := x.index + 1 } else d
  d.respond p 0x03 rcOk out.1

/-- R169: a READ request. -/
def Device.readRequest (p : Fin 4) (body : List Byte) (d : Device) : Device :=
  d.request ⟨0x03, false, true⟩ p (body.length == 0) (Device.read p)

/-- READ. -/
def execRead (p : Fin 4) (body : List Byte) (s : State) : Host.Outcome State Fault Refusal :=
  s.on (Device.readRequest p body)

/-! ### READ-CHANGES, ACK-ATTENTION, SET-NOTIFY (R170 to R172) -/

/-- R170, R191: the body of a READ-CHANGES response. -/
def changesBytes (set : List (Fin 256)) : List Byte :=
  let given := set.take 32
  BitVec.ofNat 8 (given.length + if (set.drop 32).isEmpty then 0 else 128) :: given.map fun i => BitVec.ofNat 8 i.val

/-- R170: READ-CHANGES. -/
def Device.readChanges (p : Fin 4) (d : Device) : Device :=
  let set := (d.ports.get p).changed
  (d.port p fun x => { x with changed := set.drop 32 }).respond p 0x04 rcOk (changesBytes set)

/-- R170: a READ-CHANGES request. -/
def Device.readChangesRequest (p : Fin 4) (body : List Byte) (d : Device) : Device :=
  d.request ⟨0x04, false, false⟩ p (body.length == 0) (Device.readChanges p)

/-- READ_CHANGES. -/
def execReadChanges (p : Fin 4) (body : List Byte) (s : State) : Host.Outcome State Fault Refusal :=
  s.on (Device.readChangesRequest p body)

/-- R171: ACK-ATTENTION. -/
def Device.ackAttention (p : Fin 4) (body : List Byte) (d : Device) : Device :=
  match classesOf (byteAt body 0) with
  | none => d.respond p 0x05 rcBadArgument []
  | some classes =>
    let left := (d.ports.get p).attention &&& ~~~classes
    (d.port p fun x => { x with attention := left }).respond p 0x05 rcOk [left.setWidth 8]

/-- R171: an ACK-ATTENTION request. -/
def Device.ackAttentionRequest (p : Fin 4) (body : List Byte) (d : Device) : Device :=
  d.request ⟨0x05, false, false⟩ p (body.length == 1) (Device.ackAttention p body)

/-- ACK_ATTENTION. -/
def execAckAttention (p : Fin 4) (body : List Byte) (s : State) : Host.Outcome State Fault Refusal :=
  s.on (Device.ackAttentionRequest p body)

/-- R172: a port takes a mode and a mask; a pulse that runs goes on only in a port that stays in PULSE mode. -/
def PortCtx.setNotify (mode : NotifyMode) (mask : BitVec 7) (x : PortCtx) : PortCtx :=
  { x with mode, mask, pulse := if x.mode = .pulse ∧ mode = .pulse then x.pulse else none }

/-- R172: SET-NOTIFY. -/
def Device.setNotify (p : Fin 4) (body : List Byte) (d : Device) : Device :=
  match notifyModeTable[byteAt body 0]?, classesOf (byteAt body 1) with
  | some mode, some mask => (d.port p (·.setNotify mode mask)).respond p 0x06 rcOk []
  | _, _ => d.respond p 0x06 rcBadArgument []

/-- R172: a SET-NOTIFY request. -/
def Device.setNotifyRequest (p : Fin 4) (body : List Byte) (d : Device) : Device :=
  d.request ⟨0x06, false, false⟩ p (body.length == 2) (Device.setNotify p body)

/-- SET_NOTIFY. -/
def execSetNotify (p : Fin 4) (body : List Byte) (s : State) : Host.Outcome State Fault Refusal :=
  s.on (Device.setNotifyRequest p body)

/-- R172: the end of a notify pulse. -/
def Device.pulseEnd (p : Fin 4) (d : Device) : Device :=
  d.onExpiry (d.ports.get p).pulse fun d => d.port p fun x => { x with pulse := none }

/-- NOTIFY_PULSE_END. -/
def execNotifyPulseEnd (p : Fin 4) (s : State) : Host.Outcome State Fault Refusal :=
  s.on (unlessReset (Device.pulseEnd p))

/-! ### CLEAR-CHECK, PORT-RESET (R174, R175) -/

/-- R174: every port whose role is LINE has cleared the report. -/
def Device.allCleared (d : Device) : Bool :=
  (List.finRange 4).all fun p => !d.isLine p || (d.ports.get p).cleared

/-- R174: the report discarded once every LINE port has cleared it. -/
def Device.dropCleared (d : Device) : Device := if d.allCleared then { d with check := none } else d

/-- R174: CLEAR-CHECK. -/
def Device.clearCheck (p : Fin 4) (d : Device) : Device :=
  if d.check.isNone then d.respond p 0x07 rcWrongState []
  else if (d.ports.get p).cleared then d.respond p 0x07 rcOk []
  else (d.port p fun x => { x with cleared := true }).dropCleared.respond p 0x07 rcOk []

/-- R174: a CLEAR-CHECK request. -/
def Device.clearCheckRequest (p : Fin 4) (body : List Byte) (d : Device) : Device :=
  d.request ⟨0x07, true, false⟩ p (body.length == 0) (Device.clearCheck p)

/-- CLEAR_CHECK. -/
def execClearCheck (p : Fin 4) (body : List Byte) (s : State) : Host.Outcome State Fault Refusal :=
  s.on (Device.clearCheckRequest p body)

/-- R160, R177: the notify defaults of a port in the image in force. -/
def Device.notifyDefault (d : Device) (p : Fin 4) : NotifyDefault :=
  (d.running.map fun g => g.notify.get p).getD ⟨.level, 127⟩

/-- R175: a port's context reset. -/
def PortCtx.portReset (n : NotifyDefault) (x : PortCtx) : PortCtx :=
  { x with
    table := .status, index := 0, response := none, dropped := false, attention := 0, changed := []
    mode := n.mode, mask := n.mask, pulse := none }

/-- R175: PORT-RESET. -/
def Device.portReset (p : Fin 4) (d : Device) : Device :=
  (d.port p (·.portReset (d.notifyDefault p))).respond p 0x08 rcOk []

/-- R175: a PORT-RESET request. -/
def Device.portResetRequest (p : Fin 4) (body : List Byte) (d : Device) : Device :=
  d.request ⟨0x08, false, false⟩ p (body.length == 0) (Device.portReset p)

/-- PORT_RESET. -/
def execPortReset (p : Fin 4) (body : List Byte) (s : State) : Host.Outcome State Fault Refusal :=
  s.on (Device.portResetRequest p body)

end Sys2Proof.Machine
end

