-- ==== Sys2Proof/Machine/WindowCommands.lean ====
section
/-! DEFINITION. The window commands (R54 to R57). -/

namespace Sys2Proof.Machine

/-! ### SCHEDULE-WINDOW (R54) -/

/-- R54: a window written into a slot, with WINDOW attention. -/
def Device.schedule (d : Device) (w : Fin 16) (x : Window) : Device := d.moveWindow w x

/-- R54: SCHEDULE-WINDOW. -/
def Device.scheduleWindow (p : Fin 4) (body : List Byte) (d : Device) : Device :=
  if d.clock.unset then d.respond p 0x20 rcClockUnset []
  else match scheduledWindow p d.wallNow body with
    | none => d.respond p 0x20 rcBadArgument []
    | some x =>
      match d.windows.firstFree with
      | none => d.respond p 0x20 rcTableFull []
      | some w => (d.schedule w x).respond p 0x20 rcOk (be 1 w.val)

/-- R54: a SCHEDULE-WINDOW request. -/
def Device.scheduleWindowRequest (p : Fin 4) (body : List Byte) (d : Device) : Device :=
  d.request ⟨0x20, true, false⟩ p (body.length == 13) (Device.scheduleWindow p body)

/-- SCHEDULE_WINDOW. -/
def execScheduleWindow (p : Fin 4) (body : List Byte) (s : State) : Host.Outcome State Fault Refusal :=
  s.on (Device.scheduleWindowRequest p body)

/-! ### The window named (section 3.4) -/

/-- Section 3.4: a slot number out of range is answered BAD-ARGUMENT; an EMPTY slot is in no state that these commands
take. -/
def Device.onWindow (d : Device) (p : Fin 4) (code : Nat) (body : List Byte) (act : Fin 16 → Window → Device) : Device :=
  if h : byteAt body 0 < 16 then
    match d.windows.get ⟨byteAt body 0, h⟩ with
    | none => d.respond p code rcWrongState []
    | some x => act ⟨byteAt body 0, h⟩ x
  else d.respond p code rcBadArgument []

/-! ### EXTEND-WINDOW (R55) -/

/-- R55: the states in which a close may be moved. -/
def Window.extendable (x : Window) : Bool := x.notYetOpen || (x.state == .opened && !x.closing)

/-- R55: EXTEND-WINDOW. -/
def Device.extendWindow (p : Fin 4) (body : List Byte) (d : Device) : Device :=
  d.onWindow p 0x21 body fun w x =>
    let close := dayMinuteAt body 1
    if !x.extendable then d.respond p 0x21 rcWrongState []
    else if close.ok && decide (x.closeAt.number < close.number) then
      (d.putWindow w (some { x with closeAt := close })).respond p 0x21 rcOk []
    else d.respond p 0x21 rcBadArgument []

/-- R55: an EXTEND-WINDOW request. -/
def Device.extendWindowRequest (p : Fin 4) (body : List Byte) (d : Device) : Device :=
  d.request ⟨0x21, true, false⟩ p (body.length == 5) (Device.extendWindow p body)

/-- EXTEND_WINDOW. -/
def execExtendWindow (p : Fin 4) (body : List Byte) (s : State) : Host.Outcome State Fault Refusal :=
  s.on (Device.extendWindowRequest p body)

/-! ### CLOSE-WINDOW (R56) -/

/-- R56: the wall time as a close, a minute of 1440 or more carried into the day. -/
def WallTime.asClose (t : WallTime) : DayMinute := ⟨(t.day + t.minute / 1440) % 65536, t.minute % 1440⟩

/-- R56: the close written and the closing flag set. -/
def Device.markClosing (d : Device) (w : Fin 16) (x : Window) : Device :=
  d.putWindow w (some { x with closeAt := d.clock.time.asClose, closing := true })

/-- R56: CLOSE-WINDOW. -/
def Device.closeWindow (p : Fin 4) (body : List Byte) (d : Device) : Device :=
  d.onWindow p 0x22 body fun w x =>
    if x.state ≠ .opened then d.respond p 0x22 rcWrongState []
    else
      let d' := (d.markClosing w x).respond p 0x22 rcOk []
      if d.clock.held then d' else Device.arbitrate d false d'.evaluate

/-- R56: a CLOSE-WINDOW request. -/
def Device.closeWindowRequest (p : Fin 4) (body : List Byte) (d : Device) : Device :=
  d.request ⟨0x22, true, false⟩ p (body.length == 1) (Device.closeWindow p body)

/-- CLOSE_WINDOW. -/
def execCloseWindow (p : Fin 4) (body : List Byte) (s : State) : Host.Outcome State Fault Refusal :=
  s.on (Device.closeWindowRequest p body)

/-! ### WITHDRAW-WINDOW (R57) -/

/-- R57: the states in which a window may be withdrawn. -/
def Window.withdrawable (x : Window) : Bool := x.notYetOpen || x.state == .overdue || x.state == .done

/-- R57: WITHDRAW-WINDOW. -/
def Device.withdrawWindow (p : Fin 4) (body : List Byte) (d : Device) : Device :=
  d.onWindow p 0x23 body fun w x =>
    if x.withdrawable then ((d.putWindow w none).raiseLine .window).respond p 0x23 rcOk []
    else d.respond p 0x23 rcWrongState []

/-- R57: a WITHDRAW-WINDOW request. -/
def Device.withdrawWindowRequest (p : Fin 4) (body : List Byte) (d : Device) : Device :=
  d.request ⟨0x23, true, false⟩ p (body.length == 1) (Device.withdrawWindow p body)

/-- WITHDRAW_WINDOW. -/
def execWithdrawWindow (p : Fin 4) (body : List Byte) (s : State) : Host.Outcome State Fault Refusal :=
  s.on (Device.withdrawWindowRequest p body)

end Sys2Proof.Machine
end

