-- ==== Sys2Proof/Machine/Requests.lean ====
section
/-! DEFINITION. What the bytes shifted in at a deassertion of chip-select mean (R162, R164). -/

namespace Sys2Proof.Machine

/-- R164: a request with a code; an unknown one is answered BAD-COMMAND. -/
def Device.execute (p : Fin 4) (code : Nat) (body : List Byte) (d : Device) : Device :=
  match code with
  | 0x01 => d.statusRequest p body
  | 0x02 => d.seekRequest p body
  | 0x03 => d.readRequest p body
  | 0x04 => d.readChangesRequest p body
  | 0x05 => d.ackAttentionRequest p body
  | 0x06 => d.setNotifyRequest p body
  | 0x07 => d.clearCheckRequest p body
  | 0x08 => d.portResetRequest p body
  | 0x10 => d.registerRequest p body
  | 0x11 => d.editRequest p body
  | 0x12 => d.deleteRequest p body
  | 0x13 => d.permitRequest p body
  | 0x14 => d.confirmRequest p body
  | 0x18 => d.verifyRequest p body
  | 0x19 => d.baselineRequest p body
  | 0x1A => d.commitBaselineRequest p body
  | 0x1B => d.discardBaselineRequest p body
  | 0x1C => d.clearBaselineRequest p body
  | 0x20 => d.scheduleWindowRequest p body
  | 0x21 => d.extendWindowRequest p body
  | 0x22 => d.closeWindowRequest p body
  | 0x23 => d.withdrawWindowRequest p body
  | 0x28 => d.holdClockRequest p body
  | 0x29 => d.releaseClockRequest p body
  | 0x2A => d.setClockRequest p body
  | 0x2B => d.alignClockRequest p body
  | 0x30 => d.setTapRequest p body
  | 0x38 => d.configureRequest p body
  | 0x39 => d.storeConfigRequest p body
  | 0x3A => d.setNodeIdRequest p body
  | 0x3B => d.restartRequest p body
  | code => d.respond p code rcBadCommand []

/-- R162: a transaction carried no request. -/
def noRequest (bytes : List Byte) : Bool := bytes.isEmpty || byteAt bytes 0 == 0

/-- R162: what the Port Interface does at the deassertion with the bytes shifted in. -/
def Device.undecoded (p : Fin 4) (bytes : List Byte) (d : Device) : Device :=
  if d.rst || !d.served p || noRequest bytes then d
  else if d.turnsAway p then d.port p fun x => { x with dropped := true }
  else match requestFrame bytes with
    | .damaged code => d.respond p code rcFrameError []
    | .whole code body => d.execute p code body

/-- UNDECODED_REQUEST. -/
def execUndecodedRequest (p : Fin 4) (bytes : List Byte) (s : State) : Host.Outcome State Fault Refusal :=
  s.on (Device.undecoded p bytes)

end Sys2Proof.Machine
end

