-- ==== Sys2Proof/Machine/RunTimers.lean ====
section
/-! DEFINITION. The expiries of the run timers, the request timer and the Arbiter's instants (R75, R94, R98, R115, R116,
R118, R121, R124). -/

namespace Sys2Proof.Machine

/-- R104: a run's timer expires, with the time base at its deadline at least; in a phase that does not run that wait, and
in a free slot, there is no such timer. -/
def Device.onWaitIn (slot : Fin 32) (runs : Run → Bool) (f : Device → Run → Device) (d : Device) : Device :=
  match d.runs.get slot with
  | none => d
  | some r => if runs r then f (d.reach r.deadline) r else d

/-! ### ARMED wait (R115) -/

/-- R104: the phases that run the ARMED wait. -/
def Run.awaitsArmed (r : Run) : Bool := r.phase == .arming || r.phase == .announcing

/-- R115: the ARMED wait of a run expires. -/
def Device.armedExpires (d : Device) (slot : Fin 32) (r : Run) : Device :=
  if r.role = .head then d.endHead slot ⟨.incomplete, some 1, some (.peer .silent)⟩ true
  else (d.sendOpt r.up (.refuse (d.cidOf r.circuit) r.id (r.k + 1) .silent)).cancelDown slot r

/-- ARMED_WAIT. -/
def execArmedWait (slot : Fin 32) (s : State) : Host.Outcome State Fault Refusal :=
  s.on (unlessReset (Device.onWaitIn slot Run.awaitsArmed fun d r => Device.arbitrate d false (d.armedExpires slot r)))

/-! ### Dwell (R41, R116) -/

/-- R116: the dwell of a head run ends. -/
def Device.dwellEnds (d : Device) (slot : Fin 32) (r : Run) : Device :=
  let d := ((d.freeInjectorOf slot).sendOpt r.down (.stop (d.cidOf r.circuit) r.id)).closeListen slot
  d.enter slot .collecting (d.reportWait 0 r.n)

/-- DWELL. -/
def execDwell (slot : Fin 32) (s : State) : Host.Outcome State Fault Refusal :=
  s.on (unlessReset (Device.onWaitIn slot (fun r => r.phase == .injecting) fun d r =>
    Device.arbitrate d false (d.dwellEnds slot r)))

/-! ### STOP wait (R118) -/

/-- STOP_WAIT. -/
def execStopWait (slot : Fin 32) (s : State) : Host.Outcome State Fault Refusal :=
  s.on (unlessReset (Device.onWaitIn slot (fun r => r.phase == .listening) fun d r =>
    Device.arbitrate d false (d.cancelDown slot r)))

/-! ### REPORT wait (R121) -/

/-- R104: the phases that run the REPORT wait. -/
def Run.awaitsReport (r : Run) : Bool := r.phase == .reporting || r.phase == .collecting

/-- R121: the REPORT wait of a run expires. -/
def Device.reportExpires (d : Device) (slot : Fin 32) (r : Run) : Device :=
  if r.role = .head then Device.arbitrate d false (d.endOnList slot r ⟨d.ownList slot, true⟩)
  else d.report slot r true (d.ownList slot)

/-- REPORT_WAIT. -/
def execReportWait (slot : Fin 32) (s : State) : Host.Outcome State Fault Refusal :=
  s.on (unlessReset (Device.onWaitIn slot Run.awaitsReport fun d r => d.reportExpires slot r))

/-! ### OUTCOME wait (R124) -/

/-- OUTCOME_WAIT. -/
def execOutcomeWait (slot : Fin 32) (s : State) : Host.Outcome State Fault Refusal :=
  s.on (unlessReset (Device.onWaitIn slot (fun r => r.phase == .awaitingOutcome) fun d _ =>
    Device.arbitrate d false (d.dropRun slot)))

/-! ### The request timer (R75) -/

/-- R75: the record faulted HEAD-SILENT. -/
def Circuit.headSilent (c : Circuit) : Circuit :=
  { c.stopTimer with retained := false, service := .faulted .headSilent }

/-- R75: the request timer of a record expires. -/
def Device.requestExpires (d : Device) (i : Fin 256) (c : Circuit) : Device :=
  if c.attempts < 3 then
    (d.sendOpt c.upstream (.request c.cid .verify)).onCircuit i
      (·.startTimer d.now d.requestInterval (c.attempts + 1))
  else ((d.onCircuit i Circuit.headSilent).attendChange i (some c)).judgeStaged i

/-- R75: the expiry, where the record has a timer that runs. -/
def Device.requestTimer (i : Fin 256) (d : Device) : Device :=
  match d.circuit i with
  | none => d
  | some c => d.onExpiry c.requestDeadline fun d => d.requestExpires i c

/-- REQUEST_TIMER. -/
def execRequestTimer (i : Fin 256) (s : State) : Host.Outcome State Fault Refusal :=
  s.on (unlessReset (Device.requestTimer i))

/-! ### The Arbiter's instants (R94, R98) -/

/-- R94, R98: the eligible-after of an entry passes; an URGENT entry past its preempt time calls for a preemption
judgement. -/
def Device.eligiblePasses (i : Fin 256) (kind : Kind) (d : Device) : Device :=
  match d.queued i kind with
  | none => d
  | some e => d.onExpiry e.eligibleAfter fun d => Device.arbitrate d (d.overdueUrgent e) d

/-- ELIGIBLE_AFTER. -/
def execEligibleAfter (i : Fin 256) (kind : Kind) (s : State) : Host.Outcome State Fault Refusal :=
  s.on (unlessReset (Device.eligiblePasses i kind))

/-- R98: the preempt time of an URGENT entry runs out. -/
def Device.preemptPasses (i : Fin 256) (kind : Kind) (d : Device) : Device :=
  match d.queued i kind with
  | none => d
  | some e =>
    if e.cls = .urgent then
      let d := d.reach (e.classTime + seconds d.timings.preemptTime)
      Device.arbitrate d true d
    else d

/-- PREEMPT_TIME. -/
def execPreemptTime (i : Fin 256) (kind : Kind) (s : State) : Host.Outcome State Fault Refusal :=
  s.on (unlessReset (Device.preemptPasses i kind))

end Sys2Proof.Machine
end

