-- ==== Sys2Proof/Machine/Dispatch.lean ====
section
/-! DEFINITION. One arm per command: the direct call of its meaning. -/

namespace Sys2Proof.Machine

/-- The effect of a command on everything but the queue of waiting commands. -/
def exec (i : Instr) (s : State) : Host.Outcome State Fault Refusal :=
  match i with
  | .spiTransaction p clocked => Sys2Proof.Machine.execSpiTransaction p clocked s
  | .undecodedRequest p bytes => Sys2Proof.Machine.execUndecodedRequest p bytes s
  | .status p body => Sys2Proof.Machine.execStatus p body s
  | .seek p body => Sys2Proof.Machine.execSeek p body s
  | .read p body => Sys2Proof.Machine.execRead p body s
  | .readChanges p body => Sys2Proof.Machine.execReadChanges p body s
  | .ackAttention p body => Sys2Proof.Machine.execAckAttention p body s
  | .setNotify p body => Sys2Proof.Machine.execSetNotify p body s
  | .clearCheck p body => Sys2Proof.Machine.execClearCheck p body s
  | .portReset p body => Sys2Proof.Machine.execPortReset p body s
  | .registerCircuit p body => Sys2Proof.Machine.execRegisterCircuit p body s
  | .editCircuit p body => Sys2Proof.Machine.execEditCircuit p body s
  | .deleteCircuit p body => Sys2Proof.Machine.execDeleteCircuit p body s
  | .requestPermit p body => Sys2Proof.Machine.execRequestPermit p body s
  | .confirm p body => Sys2Proof.Machine.execConfirm p body s
  | .verify p body => Sys2Proof.Machine.execVerify p body s
  | .baseline p body => Sys2Proof.Machine.execBaseline p body s
  | .commitBaseline p body => Sys2Proof.Machine.execCommitBaseline p body s
  | .discardBaseline p body => Sys2Proof.Machine.execDiscardBaseline p body s
  | .clearBaseline p body => Sys2Proof.Machine.execClearBaseline p body s
  | .scheduleWindow p body => Sys2Proof.Machine.execScheduleWindow p body s
  | .extendWindow p body => Sys2Proof.Machine.execExtendWindow p body s
  | .closeWindow p body => Sys2Proof.Machine.execCloseWindow p body s
  | .withdrawWindow p body => Sys2Proof.Machine.execWithdrawWindow p body s
  | .holdClock p body => Sys2Proof.Machine.execHoldClock p body s
  | .releaseClock p body => Sys2Proof.Machine.execReleaseClock p body s
  | .setClock p body => Sys2Proof.Machine.execSetClock p body s
  | .alignClock p body => Sys2Proof.Machine.execAlignClock p body s
  | .setTap p body => Sys2Proof.Machine.execSetTap p body s
  | .configure p body => Sys2Proof.Machine.execConfigure p body s
  | .storeConfig p body => Sys2Proof.Machine.execStoreConfig p body s
  | .storeEnd failedStage => Sys2Proof.Machine.execStoreEnd failedStage s
  | .setNodeId p body => Sys2Proof.Machine.execSetNodeId p body s
  | .restart p body => Sys2Proof.Machine.execRestart p body s
  | .powerOnReset => Sys2Proof.Machine.execPowerOnReset s
  | .rstAsserted => Sys2Proof.Machine.execRstAsserted s
  | .rstReleased => Sys2Proof.Machine.execRstReleased s
  | .loadEnd bytes => Sys2Proof.Machine.execLoadEnd bytes s
  | .clockTick => Sys2Proof.Machine.execClockTick s
  | .ppsEdge line high => Sys2Proof.Machine.execPpsEdge line high s
  | .ppsLost => Sys2Proof.Machine.execPpsLost s
  | .holdLimit => Sys2Proof.Machine.execHoldLimit s
  | .requestTimer idx => Sys2Proof.Machine.execRequestTimer idx s
  | .tapReading readings => Sys2Proof.Machine.execTapReading readings s
  | .codeFrame tap channel word level => Sys2Proof.Machine.execCodeFrame tap channel word level s
  | .freezeInChange line high => Sys2Proof.Machine.execFreezeInChange line high s
  | .eligibleAfter idx kind => Sys2Proof.Machine.execEligibleAfter idx kind s
  | .preemptTime idx kind => Sys2Proof.Machine.execPreemptTime idx kind s
  | .announce g cid run kind hop n dwell => Sys2Proof.Machine.execAnnounce g cid run kind hop n dwell s
  | .armed g cid run => Sys2Proof.Machine.execArmed g cid run s
  | .armedWait slot => Sys2Proof.Machine.execArmedWait slot s
  | .dwell slot => Sys2Proof.Machine.execDwell slot s
  | .stop g cid run => Sys2Proof.Machine.execStop g cid run s
  | .stopWait slot => Sys2Proof.Machine.execStopWait slot s
  | .report g cid run truncated hops => Sys2Proof.Machine.execReport g cid run truncated hops s
  | .reportWait slot => Sys2Proof.Machine.execReportWait slot s
  | .refuse g cid run hop reason => Sys2Proof.Machine.execRefuse g cid run hop reason s
  | .outcome g o => Sys2Proof.Machine.execOutcome g o s
  | .outcomeWait slot => Sys2Proof.Machine.execOutcomeWait slot s
  | .cancel g cid run => Sys2Proof.Machine.execCancel g cid run s
  | .request g cid kind => Sys2Proof.Machine.execRequest g cid kind s
  | .hello g node degree => Sys2Proof.Machine.execHello g node degree s
  | .frameDiscarded g bytes => Sys2Proof.Machine.execFrameDiscarded g bytes s
  | .silenceDeadline g => Sys2Proof.Machine.execSilenceDeadline g s
  | .helloPeriod g => Sys2Proof.Machine.execHelloPeriod g s
  | .linkTransmit g => Sys2Proof.Machine.execLinkTransmit g s
  | .notifyPulseEnd p => Sys2Proof.Machine.execNotifyPulseEnd p s

end Sys2Proof.Machine
end

