-- ==== Sys2Proof/Machine/Step.lean ====
section
/-! DEFINITION. One step of the part, and the host's way of putting a command first in its queue. -/

namespace Sys2Proof.Machine

/-- R51: on an empty queue nothing happens but that one millisecond of the time base passes (log 2). -/
def Device.idle (d : Device) : Device := { d with now := d.now + 1 }

/-- One step: the command at the front of the queue, with the rest left waiting. -/
def step (s : State) : Host.Outcome State Fault Refusal :=
  match s.pending with
  | [] => s.on Device.idle
  | c :: rest => exec c { s with pending := rest }

/-- The state with the command that a table word spells put at the front of the queue. -/
def State.withFetchWord (s : State) (nbits w : Nat) : State :=
  match decodeTableWord nbits w with
  | some c => { s with pending := c :: s.pending }
  | none => s

end Sys2Proof.Machine
end

