-- ==== Sys2Proof/Safety.lean ====
section
/-! DEFINITION. The terms claims are made in: when a port's request is executed and when a link's message is taken, the
client commands as R164 and R191 tabulate them, and what a state of the part keeps throughout a run. -/

namespace Sys2Proof.Machine

/-- The state with another device, the waiting commands as they were. -/
def State.put (s : State) (d : Device) : State := { s with dev := d }

/-! ### When a command has its own effect -/

/-- R162, R165, R178: a whole request on the port is executed: the RST line is not asserted, the port is not OFF and not
busy, and no response is pending. -/
def Device.takes (d : Device) (p : Fin 4) : Bool := !d.rst && d.served p && !d.turnsAway p

/-- R164: the part is CONFIGURED and a whole request on the port is executed. -/
def Device.takesAny (d : Device) (p : Fin 4) : Bool := d.takes p && d.configured

/-- R164: a whole request on the port is executed and the port's role is LINE. -/
def Device.takesLine (d : Device) (p : Fin 4) : Bool := d.takes p && d.isLine p

/-- R149: a well-formed message on the link is handed to the Run Engine. -/
def Device.linkTakes (d : Device) (g : Fin 4) : Bool := !d.rst && (d.links.get g).state == .up

/-- R2: the port has the right to a command about the record named. -/
def Device.mayName (d : Device) (p : Fin 4) (body : List Byte) (right : Right) (c : Circuit) : Prop :=
  d.named body = some c ∧ d.mayAct p c.owner right = true

/-- R65: no OPEN window covers the description. -/
def Device.uncovered (d : Device) (x : Desc) : Prop :=
  ∀ w y, d.windows.get w = some y → y.state = .opened → d.inScope y x = false

/-- R186: the command that stands for a message on a link. -/
def commandOf (g : Fin 4) : Message → Instr
  | .announce cid run kind hop n dwell => .announce g cid run kind hop n dwell
  | .armed cid run => .armed g cid run
  | .stop cid run => .stop g cid run
  | .report cid run truncated hops => .report g cid run truncated hops
  | .refuse cid run hop reason => .refuse g cid run hop reason
  | .cancel cid run => .cancel g cid run
  | .outcome o => .outcome g o
  | .request cid kind => .request g cid kind

/-! ### The client commands (R164, R191) -/

/-- One row of the tables of R164 and R191: code and rights, the length test, and the command. -/
structure ClientCommand where
  rule : CommandRule
  lengthOk : List Byte → Bool
  form : Fin 4 → List Byte → Instr

/-- A body of one length alone. -/
def hasLength (n : Nat) (body : List Byte) : Bool := body.length == n

/-- The commands a port of either role may send. -/
def sharedCommands : List ClientCommand :=
  [ ⟨⟨0x01, false, true⟩, hasLength 0, .status⟩, ⟨⟨0x02, false, true⟩, hasLength 3, .seek⟩,
    ⟨⟨0x03, false, true⟩, hasLength 0, .read⟩, ⟨⟨0x04, false, false⟩, hasLength 0, .readChanges⟩,
    ⟨⟨0x05, false, false⟩, hasLength 1, .ackAttention⟩, ⟨⟨0x06, false, false⟩, hasLength 2, .setNotify⟩,
    ⟨⟨0x08, false, false⟩, hasLength 0, .portReset⟩, ⟨⟨0x10, false, false⟩, hasLength 13, .registerCircuit⟩,
    ⟨⟨0x11, false, false⟩, editLengthOk, .editCircuit⟩, ⟨⟨0x12, false, false⟩, hasLength 4, .deleteCircuit⟩,
    ⟨⟨0x13, false, false⟩, hasLength 5, .requestPermit⟩, ⟨⟨0x14, false, false⟩, hasLength 4, .confirm⟩,
    ⟨⟨0x18, false, false⟩, hasLength 5, .verify⟩, ⟨⟨0x19, false, false⟩, hasLength 4, .baseline⟩,
    ⟨⟨0x1A, false, false⟩, hasLength 4, .commitBaseline⟩, ⟨⟨0x1B, false, false⟩, hasLength 4, .discardBaseline⟩,
    ⟨⟨0x1C, false, false⟩, hasLength 4, .clearBaseline⟩, ⟨⟨0x38, false, true⟩, hasLength 164, .configure⟩ ]

/-- The commands that only a LINE port may send. -/
def lineCommands : List ClientCommand :=
  [ ⟨⟨0x07, true, false⟩, hasLength 0, .clearCheck⟩, ⟨⟨0x20, true, false⟩, hasLength 13, .scheduleWindow⟩,
    ⟨⟨0x21, true, false⟩, hasLength 5, .extendWindow⟩, ⟨⟨0x22, true, false⟩, hasLength 1, .closeWindow⟩,
    ⟨⟨0x23, true, false⟩, hasLength 1, .withdrawWindow⟩, ⟨⟨0x28, true, false⟩, hasLength 0, .holdClock⟩,
    ⟨⟨0x29, true, false⟩, hasLength 0, .releaseClock⟩, ⟨⟨0x2A, true, false⟩, hasLength 5, .setClock⟩,
    ⟨⟨0x2B, true, false⟩, hasLength 0, .alignClock⟩, ⟨⟨0x30, true, false⟩, hasLength 8, .setTap⟩,
    ⟨⟨0x39, true, false⟩, hasLength 0, .storeConfig⟩, ⟨⟨0x3A, true, false⟩, hasLength 2, .setNodeId⟩,
    ⟨⟨0x3B, true, false⟩, hasLength 0, .restart⟩ ]

/-- R191: every client command. -/
def clientCommands : List ClientCommand := sharedCommands ++ lineCommands

/-! ### What every state of a run keeps -/

/-- R9, R10: no two records have one circuit id, and no two share a channel with the same egress or the same ingress. -/
def Device.circuitsApart (d : Device) : Prop :=
  ∀ i j a b, i ≠ j → d.circuit i = some a → d.circuit j = some b →
    a.cid ≠ b.cid ∧
      ¬(a.desc.channel = b.desc.channel ∧ (a.desc.egress = b.desc.egress ∨ a.desc.ingress = b.desc.ingress))

/-- R86: no two queue entries are of the same circuit and kind. -/
def Device.entriesApart (d : Device) : Prop :=
  d.queue.Pairwise fun a b => ¬(a.circuit = b.circuit ∧ a.kind = b.kind)

/-- R147, R148, R156, R157: a link keeps a silence deadline exactly while it hears, a queue only while it is UP and of
16 frames at most, and a count of at most 3. -/
def Link.sound (l : Link) : Prop :=
  (l.silence.isSome = l.state.hears) ∧ (l.state ≠ .up → l.queue = []) ∧ l.queue.length ≤ 16 ∧ l.agreeing ≤ 3

/-- R147, R178: every link is sound, all are DISABLED while the part is UNCONFIGURED, and it is UNCONFIGURED while a
load is in progress or the RST line is asserted. -/
def Device.linksSound (d : Device) : Prop :=
  (∀ g, (d.links.get g).sound) ∧ (d.running = none → ∀ g, (d.links.get g).state = .disabled) ∧
    (d.loading = true ∨ d.rst = true → d.running = none)

/-- R43, R46: the clock's fields stay in their ranges, and a pending tick and a hold limit stand only in a hold. -/
def Clock.sound (c : Clock) : Prop :=
  c.time.settable = true ∧ (c.pendingTick = true → c.held = true) ∧ (c.holdDeadline.isSome = c.held)

end Sys2Proof.Machine
end

