-- ==== Sys2Proof/Certificates/Slice0/Obligations.lean ====
section
/-! DEFINITION. The statements about the model. -/

open Sys2Proof Sys2Proof.Machine

/-! ### The step and the reset -/

/-- A step takes the command at the front of the queue and is its effect with the rest left waiting. -/
def Obligations.StepRunsTheFrontCommand : Prop :=
  ∀ (c : Instr) (rest : List Instr) (s : State),
    step { s with pending := c :: rest } = exec c { s with pending := rest }

/-- Every command, on any operands and in any state, answers a next state and leaves the waiting commands as they were;
on an empty queue one millisecond passes and nothing else happens (the model's choice, log 2). -/
def Obligations.EveryCommandAnswersAndKeepsTheQueue : Prop :=
  (∀ (c : Instr) (s : State), ∃ t, exec c s = .next t ∧ t.pending = s.pending) ∧
    ∀ s : State, s.pending = [] → step s = .next (s.put ({ s.dev with now := s.dev.now + 1 }))

/-- The part after power-on reset: UNCONFIGURED, every table empty, the clock at 0 and UNSET, every context, tap,
injector and link at its reset values. -/
def Obligations.ResetLeavesEveryBlockAtItsResetValues : Prop :=
  ∃ d, State.reset.dev = d ∧ d.configured = false ∧ d.pendingNode = none ∧ d.storing = none ∧ d.check = none ∧
    (∀ p, (d.ports.get p).table = .status ∧ (d.ports.get p).index = 0 ∧ (d.ports.get p).response = none ∧
      (d.ports.get p).dropped = false ∧ (d.ports.get p).attention = 0 ∧ (d.ports.get p).changed = [] ∧
      (d.ports.get p).cleared = false ∧ (d.ports.get p).mode = .level ∧ (d.ports.get p).mask = 127) ∧
    d.clock.time = ⟨0, 0, 0⟩ ∧ d.clock.unset = true ∧ d.clock.held = false ∧ d.clock.pendingTick = false ∧
    d.clock.slip = false ∧ d.clock.ppsLost = false ∧ d.clock.source = .internal ∧
    (∀ w, d.windows.get w = none) ∧ (∀ i, d.circuit i = none) ∧ d.queue = [] ∧ d.nextArrival = 1 ∧ d.grants = [] ∧
    (∀ r, d.runs.get r = none) ∧ d.nextRun = 1 ∧ (∀ j, d.injectors.get j = .free) ∧
    (∀ t, (d.taps.get t).settings = ⟨.unused, none, -300, 0, 0⟩ ∧ (d.taps.get t).level = none ∧
      (d.taps.get t).lightClass = .dark ∧ ∀ j, (d.taps.get t).slots.get j = none) ∧
    ∀ g, (d.links.get g).state = .disabled ∧ (d.links.get g).seenId = none ∧ (d.links.get g).seenDegree = none ∧
      (d.links.get g).agreeing = 0 ∧ (d.links.get g).silence = none ∧ (d.links.get g).queue = []

/-! ### Transactions and requests -/

/-- A transaction in which n bytes are clocked shifts out n bytes, the status byte and then the pending response as far
as they go; it clears DROPPED, consumes a response shifted out whole and changes nothing else. On an OFF port it
changes nothing. -/
def Obligations.TransactionShiftsOutStatusAndResponse : Prop :=
  ∀ (s : State) (p : Fin 4) (n : Nat), s.dev.rst = false → 0 < n →
    (s.dev.served p = false → exec (.spiTransaction p n) s = .next s) ∧
    (s.dev.served p = true → ∃ t, exec (.spiTransaction p n) s = .next t ∧
      ∀ out x y, out = s.dev.statusByte p :: (s.dev.ports.get p).response.getD [] →
        s.dev.ports.get p = x → t.dev.ports.get p = y →
        y.shifted.length = n ∧ y.shifted.take out.length = out.take n ∧ y.dropped = false ∧
        (y.response = if out.length ≤ n then none else x.response) ∧
        { y with shifted := x.shifted, dropped := x.dropped, response := x.response } = x ∧
        (∀ q, q ≠ p → t.dev.ports.get q = s.dev.ports.get q) ∧
        { t with dev := { t.dev with ports := s.dev.ports, draws := s.dev.draws } } = s)

/-- A request on a busy port, or on one whose response is still pending, is dropped: DROPPED is set and nothing else
happens (the table of R162). It holds for every client command and for bytes that carry a request. The tests the Port
Interface makes of an executed request, in order: UNCONFIGURED, NOT-PERMITTED, the body length. -/
def Obligations.RequestsAreTurnedAwayOrRefused : Prop :=
  (∀ (s : State) (p : Fin 4), s.dev.rst = false → s.dev.served p = true →
    (s.dev.busy p = true ∨ (s.dev.ports.get p).response.isSome = true) →
    ∀ t, t = s.put (s.dev.port p fun x => { x with dropped := true }) →
      (∀ x ∈ clientCommands, ∀ body, exec (x.form p body) s = .next t) ∧
      ∀ bytes, bytes ≠ [] → byteAt bytes 0 ≠ 0 → exec (.undecodedRequest p bytes) s = .next t) ∧
  ∀ (s : State) (p : Fin 4) (x : ClientCommand) (body : List Byte), x ∈ clientCommands → s.dev.takes p = true →
    (s.dev.configured = false → x.rule.early = false →
      exec (x.form p body) s = .next (s.put (s.dev.respond p x.rule.code 0x18 []))) ∧
    (s.dev.configured = true → x.rule.lineOnly = true → s.dev.isLine p = false →
      exec (x.form p body) s = .next (s.put (s.dev.respond p x.rule.code 0x12 []))) ∧
    ((s.dev.configured = true ∨ x.rule.early = true) → (x.rule.lineOnly = true → s.dev.isLine p = true) →
      x.lengthOk body = false →
      exec (x.form p body) s = .next (s.put (s.dev.respond p x.rule.code 0x11 [])))

/-- What the bytes shifted in do at a deassertion: none or a first byte of 00h is no request; a damaged frame is
answered FRAME-ERROR with its code byte, a whole one with an unknown code BAD-COMMAND, and a whole one with a known code
is the command it spells. -/
def Obligations.ShiftedBytesAreDecodedAtTheDeassertion : Prop :=
  ∀ (s : State) (p : Fin 4) (bytes : List Byte),
    ((bytes = [] ∨ byteAt bytes 0 = 0) → exec (.undecodedRequest p bytes) s = .next s) ∧
    (s.dev.takes p = true → bytes ≠ [] → byteAt bytes 0 ≠ 0 →
      (∀ code, requestFrame bytes = .damaged code →
        exec (.undecodedRequest p bytes) s = .next (s.put (s.dev.respond p (byteAt bytes 0) 0x1A []))) ∧
      (∀ code body, requestFrame bytes = .whole code body → (∀ x ∈ clientCommands, x.rule.code ≠ code) →
        exec (.undecodedRequest p bytes) s = .next (s.put (s.dev.respond p code 0x10 []))) ∧
      ∀ x ∈ clientCommands, ∀ body, requestFrame bytes = .whole x.rule.code body →
        exec (.undecodedRequest p bytes) s = exec (x.form p body) s)

/-- STATUS answers with the device status record and SEEK sets the cursor; neither changes anything else. A SEEK beyond
the table is answered BAD-ARGUMENT, a TENANT's SEEK of the CHECK table NOT-PERMITTED. READ answers OK: with the check
report in place of the record while it is owed to a LINE port, and the cursor stays; with the record at the cursor, and
the cursor moves on by one; past the last record with END, and the cursor stays. What a port reads of a circuit, a run
and a queue entry is the full record where the port is no TENANT or owns the circuit, and the marking foreign with what
R14, R131 and R101 leave otherwise; of a window, what every port reads alike and then each set as its whole count and
the indices the port may see; of an EMPTY slot the state alone (that nothing follows is the model's reading, log 12).
The bytes of a record are laid out as the model lays them out where the spec leaves a length or an absent value open
(logs 33 to 36). -/
def Obligations.StatusSeekAndReadAnswer : Prop :=
  (∀ (s : State) (p : Fin 4), s.dev.takes p = true →
    exec (.status p []) s = .next (s.put (s.dev.respond p 0x01 0x00 (s.dev.statusBytes p))) ∧
    ∀ (body : List Byte) (name : TableName), body.length = 3 → tableNameTable[byteAt body 0]? = some name →
      (fieldAt body 1 2 < tableSize name → ¬(s.dev.role p = some .tenant ∧ name = .check) →
        exec (.seek p body) s = .next (s.put ((s.dev.port p fun x => { x with table := name, index := fieldAt body 1 2 }).respond p 0x02 0x00 []))) ∧
      (tableSize name ≤ fieldAt body 1 2 → ¬(s.dev.role p = some .tenant ∧ name = .check) →
        exec (.seek p body) s = .next (s.put (s.dev.respond p 0x02 0x11 []))) ∧
      (fieldAt body 1 2 < tableSize name → s.dev.role p = some .tenant → name = .check →
        exec (.seek p body) s = .next (s.put (s.dev.respond p 0x02 0x12 [])))) ∧
  ∀ (s : State) (p : Fin 4) (x : PortCtx), s.dev.takes p = true → s.dev.ports.get p = x →
    (∀ r, s.dev.check = some r → s.dev.isLine p = true → x.cleared = false →
      exec (.read p []) s =
        .next (s.put (s.dev.respond p 0x03 0x00 (envelope x.table x.index 4 ++ r.bytes)))) ∧
    (¬(s.dev.check.isSome = true ∧ s.dev.isLine p = true ∧ x.cleared = false) →
      (∀ marking fields, s.dev.recordAt p x.table x.index = some (marking, fields) →
        exec (.read p []) s = .next (s.put ((s.dev.port p fun y => { y with index := y.index + 1 }).respond p 0x03 0x00
            (envelope x.table x.index marking ++ fields)))) ∧
      (s.dev.recordAt p x.table x.index = none →
        exec (.read p []) s = .next (s.put (s.dev.respond p 0x03 0x00 (envelope x.table x.index 3))))) ∧
    ∀ sees : Fin 4 → Fin 256 → Prop, (∀ q i, sees q i ↔ s.dev.role q ≠ some .tenant ∨
        ∃ c, s.dev.circuit i = some c ∧ c.owner = .port q) →
      (∀ i : Fin 256, (s.dev.circuit i = none → s.dev.recordAt p .circuits i.val = some (1, [])) ∧
        ∀ c, s.dev.circuit i = some c → (sees p i → s.dev.recordAt p .circuits i.val = some (0, c.bytes)) ∧
          (¬sees p i → s.dev.recordAt p .circuits i.val = some (2, []))) ∧
      (∀ slot : Fin 32, (s.dev.runs.get slot = none → s.dev.recordAt p .runs slot.val = some (1, [])) ∧
        ∀ r, s.dev.runs.get slot = some r →
          (sees p r.circuit → s.dev.recordAt p .runs slot.val = some (0, s.dev.runBytes slot r)) ∧
          (¬sees p r.circuit → s.dev.recordAt p .runs slot.val =
            some (2, [BitVec.ofNat 8 (codeIn nodeRoleTable r.role), BitVec.ofNat 8 (codeIn phaseTable r.phase)]))) ∧
      (∀ m, (s.dev.grantOrder.length ≤ m → s.dev.recordAt p .queue m = none) ∧
        ∀ e, s.dev.grantOrder[m]? = some e →
          (sees p e.circuit → s.dev.recordAt p .queue m = some (0, s.dev.entryBytes e)) ∧
          (¬sees p e.circuit → s.dev.recordAt p .queue m =
            some (2, [BitVec.ofNat 8 (codeIn kindTable e.kind), BitVec.ofNat 8 (codeIn qClassTable e.cls)]))) ∧
      ∀ w : Fin 16, (s.dev.windows.get w = none → s.dev.recordAt p .windows w.val = some (0, [0])) ∧
        ∀ y, s.dev.windows.get w = some y → ∃ shared, ∀ (q : Fin 4) (set : List (Fin 256) → List Byte),
          (∀ l mine : List (Fin 256), mine.Sublist l → (∀ i ∈ l, i ∈ mine ↔ sees q i) → l.Nodup →
            set l = be 2 l.length ++ be 2 mine.length ++ mine.map fun i => BitVec.ofNat 8 i.val) →
          y.baselineSet.Nodup → y.members.Nodup → y.unresolved.Nodup →
          s.dev.recordAt q .windows w.val = some (0, shared ++ set y.baselineSet ++ set y.members ++ set y.unresolved)

/-- READ-CHANGES returns the first 32 indices of the changed set, which in an ascending set are its lowest, removes
them, and says MORE when some remain; ACK-ATTENTION clears the classes named and answers with what is left. -/
def Obligations.ReadChangesAndAckAttentionTakeWhatTheyName : Prop :=
  ∀ (s : State) (p : Fin 4) (x : PortCtx), s.dev.takesAny p = true → s.dev.ports.get p = x →
    (∀ given left more, given = x.changed.take 32 → left = x.changed.drop 32 → more = (if left = [] then 0 else 128) →
      exec (.readChanges p []) s = .next (s.put ((s.dev.port p fun y => { y with changed := left }).respond p 0x04 0x00
          (BitVec.ofNat 8 (given.length + more) :: given.map fun i => BitVec.ofNat 8 i.val))) ∧
      (x.changed.Pairwise (· < ·) → ∀ i ∈ given, ∀ j ∈ left, i < j)) ∧
    ∀ body, body.length = 1 →
      (byteAt body 0 < 128 →
        ∀ a, a = x.attention &&& ~~~(BitVec.ofNat 7 (byteAt body 0)) →
          exec (.ackAttention p body) s = .next (s.put ((s.dev.port p fun y => { y with attention := a }).respond p 0x05 0x00 [a.setWidth 8]))) ∧
      (128 ≤ byteAt body 0 →
        exec (.ackAttention p body) s = .next (s.put (s.dev.respond p 0x05 0x11 [])))

/-- SET-NOTIFY writes mode and mask, and a running pulse goes on only in a port that stays in PULSE mode; another code
or a mask with an unknown class is BAD-ARGUMENT. A pulse ends 5 ms after its class was raised, at NOTIFY_PULSE_END; that
the end finds the time base at that instant at least is the model's choice (log 3). In LEVEL mode the signal is asserted
exactly while an unmasked class is set. -/
def Obligations.NotifyFollowsModeMaskAndPulse : Prop :=
  ∀ (s : State) (p : Fin 4) (x : PortCtx), s.dev.ports.get p = x →
    (s.dev.takesAny p = true → ∀ body, body.length = 2 →
      (∀ mode, notifyModeTable[byteAt body 0]? = some mode → byteAt body 1 < 128 →
        exec (.setNotify p body) s = .next (s.put ((s.dev.port p fun y => { y with
            mode := mode, mask := BitVec.ofNat 7 (byteAt body 1),
            pulse := if y.mode = .pulse ∧ mode = .pulse then y.pulse else none }).respond p 0x06 0x00 []))) ∧
      ((1 < byteAt body 0 ∨ 128 ≤ byteAt body 1) →
        exec (.setNotify p body) s = .next (s.put (s.dev.respond p 0x06 0x11 [])))) ∧
    (s.dev.rst = false → ∀ deadline, x.pulse = some deadline →
      exec (.notifyPulseEnd p) s = .next (s.put ({ s.dev with now := max s.dev.now deadline, ports := s.dev.ports.set p { x with pulse := none } }))) ∧
    (x.mode = .level → (x.notify = true ↔ ∃ c : AttClass, hasAtt x.attention c = true ∧ hasAtt x.mask c = false))

/-- CLEAR-CHECK with no report is WRONG-STATE; with one it sets the port's check cleared, and the report goes in the
same event once every LINE port has cleared it. -/
def Obligations.ClearCheckEndsTheReportAtTheLastLinePort : Prop :=
  ∀ (s : State) (p : Fin 4), s.dev.takesLine p = true →
    (s.dev.check = none → exec (.clearCheck p []) s = .next (s.put (s.dev.respond p 0x07 0x17 []))) ∧
    (∀ r, s.dev.check = some r → (s.dev.ports.get p).cleared = true →
      exec (.clearCheck p []) s = .next (s.put (s.dev.respond p 0x07 0x00 []))) ∧
    (∀ r, s.dev.check = some r → (s.dev.ports.get p).cleared = false →
      ((∀ q, s.dev.isLine q = true → q ≠ p → (s.dev.ports.get q).cleared = true) →
        exec (.clearCheck p []) s = .next (s.put (({ (s.dev.port p fun x => { x with cleared := true }) with check := none } : Device).respond p 0x07 0x00 []))) ∧
      (∀ q, s.dev.isLine q = true → q ≠ p → (s.dev.ports.get q).cleared = false →
        exec (.clearCheck p []) s = .next (s.put ((s.dev.port p fun x => { x with cleared := true }).respond p 0x07 0x00 []))))

/-- PORT-RESET puts the sending port's context at its reset values with the image's notify defaults and the notify
signal deasserted, keeps its role and its check cleared, makes OK pending, and touches nothing else. While the part is
UNCONFIGURED it is answered UNCONFIGURED. -/
def Obligations.PortResetTouchesOneContext : Prop :=
  ∀ (s : State) (p : Fin 4), s.dev.takes p = true →
    (s.dev.running = none → exec (.portReset p []) s = .next (s.put (s.dev.respond p 0x08 0x18 []))) ∧
    ∀ g, s.dev.running = some g → ∃ t y, exec (.portReset p []) s = .next t ∧ t.dev.ports.get p = y ∧
      y.table = .status ∧ y.index = 0 ∧ y.response = some (responseFrame 0x08 0x00 []) ∧ y.dropped = false ∧
      y.attention = 0 ∧ y.changed = [] ∧ y.mode = (g.notify.get p).mode ∧ y.mask = (g.notify.get p).mask ∧
      y.pulse = none ∧ y.notify = false ∧ y.cleared = (s.dev.ports.get p).cleared ∧
      y.shifted = (s.dev.ports.get p).shifted ∧ t.dev.role p = s.dev.role p ∧
      (∀ q, q ≠ p → t.dev.ports.get q = s.dev.ports.get q) ∧
      { t with dev := { t.dev with ports := s.dev.ports } } = s

/-- Attention "to the LINE ports" and "to the owner" sets the class on exactly those ports, starts a 5 ms pulse where
an unmasked class goes from clear to set in PULSE mode with none running, and changes nothing else. A check with no
report present makes one with count 0, clears check cleared on the LINE ports and raises CHECK there; with a report
present it adds one to the count, up to 255, and nothing else. -/
def Obligations.AttentionAndChecksAreRaised : Prop :=
  (∀ (d : Device) (c : AttClass) (o : Owner),
    (∀ p x, d.ports.get p = x →
      ∀ y, y = { x with
          attention := x.attention ||| c.bit
          pulse := if x.mode = .pulse ∧ hasAtt x.attention c = false ∧ hasAtt x.mask c = false ∧ x.pulse = none
            then some (d.now + 5) else x.pulse } →
        (d.raiseLine c).ports.get p = (if d.role p = some .line then y else x) ∧
        (d.raiseOwner o c).ports.get p =
          (if (o = .line ∧ d.role p = some .line) ∨ (o = .port p ∧ (d.role p = some .line ∨ d.role p = some .tenant))
           then y else x)) ∧
    { d.raiseLine c with ports := d.ports } = d ∧ { d.raiseOwner o c with ports := d.ports } = d) ∧
  ∀ (d : Device) (cause : CheckCause),
    (d.check = none → d.raiseCheck cause =
      ({ d with
          check := some ⟨cause, d.clock.time, 0⟩
          ports := d.ports.mapIdx fun p x => if d.isLine p then { x with cleared := false } else x } : Device).raiseLine
        .check) ∧
    ∀ r, d.check = some r → d.raiseCheck cause = { d with check := some { r with count := min 255 (r.count + 1) } }

/-! ### Circuits -/

/-- A registration that passes every test makes the record of R11 in the lowest free entry, owned by the port or by
LINE, with CIRCUIT attention to the owner and the index in its changed sets. Where no OPEN window covers it, it stays
UNPROVEN; where one does, it joins the members of every OPEN window that covers it and is HELD. -/
def Obligations.RegistrationCreatesTheRecord : Prop :=
  ∀ (s : State) (p : Fin 4) (body : List Byte) (x : Desc) (i : Fin 256) (c : Circuit) (owner : Owner),
    s.dev.takesAny p = true → body.length = 13 → registerDesc body = some x → x.agrees = true →
    s.dev.wellFormed x = true → s.dev.findCid (fieldAt body 0 3) = none → s.dev.conflicts none x = false →
    s.dev.circuits.firstFree = some i → owner = (if s.dev.isLine p then .line else .port p) →
    c = { cid := fieldAt body 0 3, owner := owner, desc := x, service := .unproven, permitRequest := false
          retained := false, run := none, attempts := 0, requestDeadline := none, committed := none
          candidate := none, lastOutcome := none, hopList := none, staged := none, lastEdit := .none } →
    (s.dev.uncovered x → exec (.registerCircuit p body) s = .next (s.put
      ((({ s.dev with circuits := s.dev.circuits.set i (some c) } : Device).attendCircuit owner i).respond p 0x10 0x00
        [BitVec.ofNat 8 i.val]))) ∧
    ((∃ w y, s.dev.windows.get w = some y ∧ y.state = .opened ∧ s.dev.inScope y x = true) →
      (∀ w y, s.dev.windows.get w = some y → y.state = .opened → i ∉ y.members) → s.dev.runOf i = none →
      ∃ d : Device, exec (.registerCircuit p body) s = .next (s.put (d.respond p 0x10 0x00 [BitVec.ofNat 8 i.val])) ∧
        d.circuits = s.dev.circuits.set i (some { c with service := .held }) ∧
        (∀ w, d.windows.get w = (s.dev.windows.get w).map fun y =>
          if y.state = .opened ∧ s.dev.inScope y x = true then { y with members := insertIdx i y.members } else y) ∧
        (∀ q, s.dev.ownedBy owner q = true →
          hasAtt (d.ports.get q).attention .circuit = true ∧ i ∈ (d.ports.get q).changed) ∧
        { d with circuits := s.dev.circuits, windows := s.dev.windows, ports := s.dev.ports } = s.dev)

/-- A registration is judged in the order of R10: ranges, agreement of role, hop and length, taps (BAD-ARGUMENT), the
circuit id and the channel (CONFLICT), a free entry (TABLE-FULL); a refused one changes nothing. A body gives a
description exactly where every field of it lies in its range, and the description holds each field as the body spells
it: ingress and egress as the tap or the degree that the role calls for, and 5, 15, FAIL and WITHDRAW-AUTO for a dwell,
a tolerance, an incomplete policy and a safe behaviour left to their defaults. -/
def Obligations.RegistrationIsJudgedInOrder : Prop :=
  (∀ (body : List Byte) (x : Desc), registerDesc body = some x ↔
    fieldAt body 0 3 ≠ 0 ∧ nodeRoleTable[byteAt body 3]? = some x.role ∧
    x.k = byteAt body 4 ∧ x.k ≤ 15 ∧ x.n = byteAt body 5 ∧ 2 ≤ x.n ∧ x.n ≤ 16 ∧
    x.channel = byteAt body 6 ∧ 1 ≤ x.channel ∧ x.channel ≤ 96 ∧
    (x.role = .head → ∃ t : Fin 16, byteAt body 7 = t.val ∧ x.ingress = .tap t) ∧
    (x.role ≠ .head → ∃ g : Fin 4, byteAt body 7 = g.val ∧ x.ingress = .degree g) ∧
    (x.role = .tail → ∃ t : Fin 16, byteAt body 8 = t.val ∧ x.egress = .tap t) ∧
    (x.role ≠ .tail → ∃ g : Fin 4, byteAt body 8 = g.val ∧ x.egress = .degree g) ∧
    x.dwell = (if byteAt body 9 = 255 then 5 else byteAt body 9) ∧ 1 ≤ x.dwell ∧ x.dwell ≤ 20 ∧
    x.tolerance = (if byteAt body 10 = 255 then 15 else byteAt body 10) ∧ 1 ≤ x.tolerance ∧ x.tolerance ≤ 100 ∧
    ((byteAt body 11 = 255 ∧ x.policy = .fail) ∨ policyTable[byteAt body 11]? = some x.policy) ∧
    ((byteAt body 12 = 255 ∧ x.safe = .withdrawAuto) ∨ safeTable[byteAt body 12]? = some x.safe)) ∧
  ∀ (s : State) (p : Fin 4) (body : List Byte) (refused : Nat → Prop),
    s.dev.takesAny p = true → body.length = 13 →
    (∀ rc, refused rc ↔ exec (.registerCircuit p body) s = .next (s.put (s.dev.respond p 0x10 rc []))) →
    (registerDesc body = none → refused 0x11) ∧
    ∀ x, registerDesc body = some x →
      ((x.agrees = false ∨ s.dev.wellFormed x = false) → refused 0x11) ∧
      (x.agrees = true → s.dev.wellFormed x = true →
        (((∃ i c, s.dev.circuit i = some c ∧ c.cid = fieldAt body 0 3) ∨ s.dev.conflicts none x = true) →
          refused 0x15) ∧
        (s.dev.findCid (fieldAt body 0 3) = none → s.dev.conflicts none x = false →
          (∀ i, (s.dev.circuit i).isSome = true) → refused 0x14))

/-- A command about a circuit is taken only where the entry at the index holds a record with the circuit id (NOT-FOUND)
and the port has the right its command calls for (NOT-PERMITTED): the owner, or for runs and baselines any LINE port as
well; the urgent flag is for LINE ports alone. -/
def Obligations.CircuitIsNamedTwiceAndOwned : Prop :=
  ∀ (s : State) (p : Fin 4) (body : List Byte) (code : Nat) (right : Right) (cmd : Instr),
    s.dev.takesAny p = true →
    ((body.length = 4 ∧ (code, right, cmd) ∈
        [ (0x12, Right.owner, Instr.deleteCircuit p body), (0x14, .owner, .confirm p body),
          (0x19, .ownerOrLine, .baseline p body), (0x1A, .ownerOrLine, .commitBaseline p body),
          (0x1B, .ownerOrLine, .discardBaseline p body), (0x1C, .ownerOrLine, .clearBaseline p body) ]) ∨
      (body.length = 5 ∧ byteAt body 4 < 2 ∧ (code, right, cmd) ∈
        [(0x13, Right.owner, Instr.requestPermit p body), (0x18, .ownerOrLine, .verify p body)]) ∨
      (editLengthOk body = true ∧ byteAt body 4 < 2 ∧ (code, right, cmd) = (0x11, Right.owner, .editCircuit p body))) →
    (∀ c, s.dev.named body = some c ↔ s.dev.circuit (namedIndex body) = some c ∧ c.cid = namedCid body) ∧
    (s.dev.named body = none → exec cmd s = .next (s.put (s.dev.respond p code 0x13 []))) ∧
    ∀ c, s.dev.named body = some c →
      (¬(c.owner = .port p ∨ (s.dev.isLine p = true ∧ (c.owner = .line ∨ right = .ownerOrLine))) →
        exec cmd s = .next (s.put (s.dev.respond p code 0x12 []))) ∧
      (c.owner = .port p → code = 0x18 → byteAt body 4 = 1 → s.dev.isLine p = false →
        exec cmd s = .next (s.put (s.dev.respond p code 0x12 [])))

/-- An EDIT-CIRCUIT body spells one to ten changes that name no field twice, and the changes laid over a description
give one exactly where each value lies in its field's range, ingress and egress being of the kind that the resulting
role calls for; a field not named is kept. An edit is judged in the order of R15. An accepted one is applied at once to
a quiescent record, and so is a transparent soft edit of any record; any other is staged in place of an older one, with
the last edit result NONE. A path edit removes both baselines and the hop list, sets attempts to 0, removes the queue
entries of a record that leaves the role HEAD, and hands the record to the calendar, which makes it a member of every
OPEN window that covers it and delivers the hold change; the Arbiter then judges (log 22, DEDUCED). A staged edit waits
while its record is not quiescent, is dropped as DROPPED-PATH or DROPPED-CONFLICT where it no longer fits, and is
applied with the effects of any edit otherwise, with EDIT attention in each of these. -/
def Obligations.EditIsAppliedOrStaged : Prop :=
  (∀ (body : List Byte) (changes : List Change), editList body = some changes ↔
    1 ≤ byteAt body 5 ∧ byteAt body 5 ≤ 10 ∧ changes.length = byteAt body 5 ∧ (changes.map (·.field)).Nodup ∧
    ∀ m ch, changes[m]? = some ch →
      fieldTable[byteAt body (6 + 3 * m)]? = some ch.field ∧ ch.value = fieldAt body (7 + 3 * m) 2) ∧
  (∀ (c x : Desc) (changes : List Change) (reads : Field → (Nat → Prop) → Prop → Prop),
    (changes.map (·.field)).Nodup →
    (∀ f fits kept, reads f fits kept ↔
      (∀ v, ⟨f, v⟩ ∈ changes → fits v) ∧ ((∀ v, ⟨f, v⟩ ∉ changes) → kept)) →
    (c.overlay changes = some x ↔
      (x.role = .head ↔ ∃ t, x.ingress = .tap t) ∧ (x.role = .tail ↔ ∃ t, x.egress = .tap t) ∧
      reads .role (fun v => nodeRoleTable[v]? = some x.role) (x.role = c.role) ∧
      reads .hop (fun v => x.k = v ∧ v ≤ 15) (x.k = c.k) ∧
      reads .length (fun v => x.n = v ∧ 2 ≤ v ∧ v ≤ 16) (x.n = c.n) ∧
      reads .channel (fun v => x.channel = v ∧ 1 ≤ v ∧ v ≤ 96) (x.channel = c.channel) ∧
      reads .ingress (fun v => (∃ t : Fin 16, x.role = .head ∧ v = t.val ∧ x.ingress = .tap t) ∨
        ∃ g : Fin 4, x.role ≠ .head ∧ v = g.val ∧ x.ingress = .degree g) (x.ingress = c.ingress) ∧
      reads .egress (fun v => (∃ t : Fin 16, x.role = .tail ∧ v = t.val ∧ x.egress = .tap t) ∨
        ∃ g : Fin 4, x.role ≠ .tail ∧ v = g.val ∧ x.egress = .degree g) (x.egress = c.egress) ∧
      reads .dwell (fun v => (v = 65535 ∧ x.dwell = 5) ∨ (x.dwell = v ∧ 1 ≤ v ∧ v ≤ 20)) (x.dwell = c.dwell) ∧
      reads .tolerance (fun v => (v = 65535 ∧ x.tolerance = 15) ∨ (x.tolerance = v ∧ 1 ≤ v ∧ v ≤ 100))
        (x.tolerance = c.tolerance) ∧
      reads .policy (fun v => (v = 65535 ∧ x.policy = .fail) ∨ policyTable[v]? = some x.policy) (x.policy = c.policy) ∧
      reads .safe (fun v => (v = 65535 ∧ x.safe = .withdrawAuto) ∨ safeTable[v]? = some x.safe) (x.safe = c.safe))) ∧
  (∀ (s : State) (p : Fin 4) (body : List Byte) (i : Fin 256) (c : Circuit) (transparent : Bool)
      (answer : Nat → Device → Prop),
    s.dev.takesAny p = true → editLengthOk body = true → i = namedIndex body → s.dev.mayName p body .owner c →
    byteAt body 4 = (if transparent then 1 else 0) →
    (∀ rc d, answer rc d ↔ exec (.editCircuit p body) s = .next (s.put (d.respond p 0x11 rc []))) →
    (editList body = none → answer 0x11 s.dev) ∧
    ∀ changes, editList body = some changes →
      (c.desc.overlay changes = none → answer 0x11 s.dev) ∧
      ∀ x, c.desc.overlay changes = some x →
        ((x.agrees = false ∨ s.dev.wellFormed x = false) → answer 0x11 s.dev) ∧
        (x.agrees = true → s.dev.wellFormed x = true → s.dev.conflicts (some i) x = true → answer 0x15 s.dev) ∧
        (x.agrees = true → s.dev.wellFormed x = true → s.dev.conflicts (some i) x = false →
          (isPathEdit changes = false → (c.quiescent = true ∨ transparent = true) →
            answer 0x00 { s.dev with circuits := s.dev.circuits.set i (some { c with desc := x }) }) ∧
          (isPathEdit changes = true → c.quiescent = true →
            exec (.editCircuit p body) s = .next (s.put (Device.arbitrate s.dev false
              (Device.respond (Device.calendarTakes { s.dev with
                  queue := if c.desc.role = .head ∧ x.role ≠ .head then s.dev.queue.filter fun e => e.circuit != i
                    else s.dev.queue
                  circuits := s.dev.circuits.set i (some
                    { c with desc := x, committed := none, candidate := none, hopList := none, attempts := 0 }) } i)
                p 0x11 0x00 [])))) ∧
          (c.quiescent = false → (isPathEdit changes = true ∨ transparent = false) →
            answer 0x01 { s.dev with circuits := s.dev.circuits.set i (some
              { c with staged := some ⟨transparent, changes⟩, lastEdit := .none }) }))) ∧
  (∀ (d : Device) (i : Fin 256) (c : Circuit) (covers : Fin 16 → Window → Prop), d.circuit i = some c →
    (∀ w y, covers w y ↔
      d.windows.get w = some y ∧ y.state = .opened ∧ d.inScope y c.desc = true ∧ i ∉ y.members) →
    ((∀ w y, ¬covers w y) → d.calendarTakes i = d) ∧
    ((∃ w y, covers w y) → ∃ (t : Table (Option Window) 16) (h : HoldChange),
      d.calendarTakes i = Device.holdChange { d with windows := t } i h ∧
      (∀ w y, d.windows.get w = some y →
        (covers w y → t.get w = some { y with members := insertIdx i y.members }) ∧
        (¬covers w y → t.get w = some y)) ∧
      (∀ w, d.windows.get w = none → t.get w = none) ∧
      (∀ w, w ∈ h.added ↔ ∃ y, covers w y) ∧ h.closed = [] ∧
      ∀ w, w ∈ h.held ↔ ∃ y, t.get w = some y ∧ y.state = .opened ∧ i ∈ y.members)) ∧
  ∀ (d : Device) (i : Fin 256) (c : Circuit), d.circuit i = some c →
    (c.staged = none → d.judgeStaged i = d) ∧
    ∀ e (becomes : Device → Prop) (dropped : EditResult → Prop), c.staged = some e →
      (∀ b, becomes b ↔ d.judgeStaged i = b.raiseOwner c.owner .edit) →
      (∀ r, dropped r ↔
        becomes { d with circuits := d.circuits.set i (some { c with staged := none, lastEdit := r }) }) →
      (c.quiescent = false → d.judgeStaged i = d) ∧
      (c.quiescent = true →
        (c.desc.overlay e.changes = none → dropped .droppedPath) ∧
        ∀ x, c.desc.overlay e.changes = some x →
          ((x.agrees = false ∨ d.wellFormed x = false) → dropped .droppedPath) ∧
          (x.agrees = true → d.wellFormed x = true → d.conflicts (some i) x = true → dropped .droppedConflict) ∧
          (x.agrees = true → d.wellFormed x = true → d.conflicts (some i) x = false →
            (isPathEdit e.changes = false → becomes { d with circuits := d.circuits.set i (some
              { c with desc := x, staged := none, lastEdit := .applied }) }) ∧
            (isPathEdit e.changes = true → becomes (Device.calendarTakes { d with
              queue := if c.desc.role = .head ∧ x.role ≠ .head then d.queue.filter fun q => q.circuit != i else d.queue
              circuits := d.circuits.set i (some { c with
                desc := x, staged := none, lastEdit := .applied, committed := none, candidate := none, hopList := none
                attempts := 0 }) } i))))

/-- DELETE-CIRCUIT frees the entry, removes the circuit's queue entries and its index from every window (a window whose
last unresolved member it was goes to DONE, and nothing else of a window changes), abandons its run with REFUSE UNKNOWN
upstream from a transit or tail and CANCEL downstream, and tells the owner; no other record changes. At the end of the
event the Arbiter judges (R94; that it is once and at the end is the model's reading, log 22, DEDUCED). -/
def Obligations.DeletionRemovesTheRecordEverywhere : Prop :=
  ∀ (s : State) (p : Fin 4) (body : List Byte) (i : Fin 256) (c : Circuit),
    s.dev.takesAny p = true → body.length = 4 → i = namedIndex body → s.dev.mayName p body .owner c →
    ∃ d : Device, exec (.deleteCircuit p body) s =
        .next (s.put (Device.arbitrate s.dev false (d.respond p 0x12 0x00 []))) ∧
      d.circuits = s.dev.circuits.set i none ∧ d.queue = s.dev.queue.filter (fun e => e.circuit != i) ∧
      (∀ w, d.windows.get w = (s.dev.windows.get w).map fun y => { y with
        baselineSet := y.baselineSet.filter (· != i), members := y.members.filter (· != i)
        unresolved := y.unresolved.filter (· != i)
        state := if (y.state = .verifying ∨ y.state = .overdue) ∧ i ∈ y.unresolved ∧
            y.unresolved.filter (· != i) = [] then .done else y.state }) ∧
      (∀ q, s.dev.ownedBy c.owner q = true →
        hasAtt (d.ports.get q).attention .circuit = true ∧ i ∈ (d.ports.get q).changed) ∧
      (s.dev.runOf i = none → d.runs = s.dev.runs ∧ d.links = s.dev.links ∧ d.taps = s.dev.taps) ∧
      ∀ slot r, s.dev.runOf i = some slot → s.dev.runs.get slot = some r →
        d.runs = s.dev.runs.set slot none ∧ (∀ j, (d.injectors.get j).run ≠ some slot) ∧
        d.taps = (if r.listen = .opened then s.dev.releaseSlots slot else s.dev).taps ∧
        d.links = (Device.sendOpt (if r.role = .head then s.dev else s.dev.sendOpt r.up (.refuse c.cid r.id r.k .unknown))
          r.down (.cancel c.cid r.id)).links

/-- REQUEST-PERMIT writes ON (00h) or OFF (01h), the codes of R182 as the model reads them (log 19, DEDUCED), in every
service state, OFF clearing the retained-permit flag of a HELD or DUE record, with CIRCUIT attention where the permit
changes; another code is BAD-ARGUMENT. CONFIRM takes AWAIT-CONFIRM to IN-SERVICE with CIRCUIT attention and is
WRONG-STATE otherwise; it ends with the judgement of a staged edit (R20), after which the Arbiter judges (logs 22 and
24, DEDUCED). -/
def Obligations.PermitRequestAndConfirm : Prop :=
  ∀ (s : State) (p : Fin 4) (body : List Byte) (i : Fin 256) (c : Circuit),
    s.dev.takesAny p = true → i = namedIndex body → s.dev.mayName p body .owner c →
    (body.length = 5 → byteAt body 4 < 2 → ∀ on b d, on = decide (byteAt body 4 = 0) →
      b = { c with
          permitRequest := on
          retained := if on = false ∧ (c.service = .held ∨ c.service = .due) then false else c.retained } →
      d = { s.dev with circuits := s.dev.circuits.set i (some b) } →
      exec (.requestPermit p body) s = .next (s.put
        ((if b.permit = c.permit then d else d.attendCircuit c.owner i).respond p 0x13 0x00 []))) ∧
    (body.length = 5 → 2 ≤ byteAt body 4 →
      exec (.requestPermit p body) s = .next (s.put (s.dev.respond p 0x13 0x11 []))) ∧
    (body.length = 4 → c.service ≠ .awaitConfirm →
      exec (.confirm p body) s = .next (s.put (s.dev.respond p 0x14 0x17 []))) ∧
    (body.length = 4 → c.service = .awaitConfirm →
      ∀ d, d = Device.attendCircuit { s.dev.respond p 0x14 0x00 [] with
          circuits := s.dev.circuits.set i (some { c with service := .inService }) } c.owner i →
        (c.staged = none → exec (.confirm p body) s = .next (s.put d)) ∧
        (c.staged ≠ none → exec (.confirm p body) s =
          .next (s.put (Device.arbitrate (s.dev.respond p 0x14 0x00 []) false (d.judgeStaged i)))))

/-- VERIFY (LOW, or URGENT with the flag) and BASELINE (NORMAL): WRONG-STATE for a HELD circuit; at a HEAD a new entry
with the next arrival number, or a merge that keeps the older entry's place and takes the higher class, answered with
disposition and class; at any other a REQUEST upstream, answered FORWARDED. The entry that takes the number 4294967295
renumbers every entry and grant record from 1 upwards in their present order and sets the counter to the next number. At
the end of the event at a HEAD the Arbiter judges (R94; that it is once and at the end is the model's reading, log 22,
DEDUCED). -/
def Obligations.VerifyAndBaselineAskForARun : Prop :=
  ∀ (s : State) (p : Fin 4) (body : List Byte) (i : Fin 256) (c : Circuit) (kind : Kind) (cls : QClass) (code : Nat)
      (cmd : Instr),
    s.dev.takesAny p = true → i = namedIndex body → s.dev.mayName p body .ownerOrLine c →
    ((kind = .verify ∧ code = 0x18 ∧ cmd = .verify p body ∧ body.length = 5 ∧
        ((byteAt body 4 = 0 ∧ cls = .low) ∨ (byteAt body 4 = 1 ∧ s.dev.isLine p = true ∧ cls = .urgent))) ∨
      (kind = .baseline ∧ code = 0x19 ∧ cmd = .baseline p body ∧ body.length = 4 ∧ cls = .normal)) →
    (c.service = .held → exec cmd s = .next (s.put (s.dev.respond p code 0x17 []))) ∧
    (c.service ≠ .held → c.desc.role ≠ .head →
      exec cmd s = .next (s.put
        ((s.dev.sendOpt c.desc.ingress.degree? (.request c.cid kind)).respond p code 0x00 [2, 255]))) ∧
    (c.service ≠ .held → c.desc.role = .head → s.dev.queued i kind = none → s.dev.nextArrival < 4294967295 →
      exec cmd s = .next (s.put (Device.arbitrate s.dev false
        (Device.respond { s.dev with
            queue := s.dev.queue ++ [⟨i, kind, cls, s.dev.nextArrival, s.dev.now, none⟩]
            nextArrival := s.dev.nextArrival + 1 }
          p code 0x00 [0, BitVec.ofNat 8 (codeIn qClassTable cls)])))) ∧
    (c.service ≠ .held → c.desc.role = .head → s.dev.queued i kind = none → s.dev.nextArrival = 4294967295 →
      ∀ (entries : List QueueEntry) (used : List Nat) (place : Nat → Nat),
        entries = s.dev.queue ++ [⟨i, kind, cls, 4294967295, s.dev.now, none⟩] →
        used = (entries.map (·.arrival) ++ s.dev.grants.map (·.arrival)).dedup →
        (∀ a, place a = (used.filter (· < a)).length + 1) →
        exec cmd s = .next (s.put (Device.arbitrate s.dev false
          (Device.respond { s.dev with
              queue := entries.map fun e => { e with arrival := place e.arrival }
              grants := s.dev.grants.map fun g => { g with arrival := place g.arrival }
              nextArrival := used.length + 1 }
            p code 0x00 [0, BitVec.ofNat 8 (codeIn qClassTable cls)])))) ∧
    (∀ e, c.service ≠ .held → c.desc.role = .head → s.dev.queued i kind = some e →
      exec cmd s = .next (s.put (Device.arbitrate s.dev false
        (Device.respond { s.dev with
            queue := s.dev.queue.map fun x =>
              if x.circuit = i ∧ x.kind = kind ∧ x.cls.rank < cls.rank then { x with cls := cls, classTime := s.dev.now }
              else x }
          p code 0x00 [1, BitVec.ofNat 8 (codeIn qClassTable (if e.cls.rank < cls.rank then cls else e.cls))]))))

/-- COMMIT-BASELINE makes the candidate the committed baseline, DISCARD-BASELINE removes it (both NOT-FOUND without
one), CLEAR-BASELINE removes both; none changes anything else. -/
def Obligations.BaselineCommandsMoveAndRemove : Prop :=
  ∀ (s : State) (p : Fin 4) (body : List Byte) (i : Fin 256) (c : Circuit) (answer : Nat → Circuit → Device),
    s.dev.takesAny p = true → body.length = 4 → i = namedIndex body → s.dev.mayName p body .ownerOrLine c →
    (∀ code b, answer code b = Device.respond { s.dev with circuits := s.dev.circuits.set i (some b) } p code 0x00 []) →
    (c.candidate = none →
      exec (.commitBaseline p body) s = .next (s.put (s.dev.respond p 0x1A 0x13 [])) ∧
      exec (.discardBaseline p body) s = .next (s.put (s.dev.respond p 0x1B 0x13 []))) ∧
    (∀ b, c.candidate = some b →
      exec (.commitBaseline p body) s = .next (s.put
        (answer 0x1A { c with committed := some ⟨b.inLevel, b.outLevel, b.time⟩, candidate := none })) ∧
      exec (.discardBaseline p body) s = .next (s.put (answer 0x1B { c with candidate := none }))) ∧
    exec (.clearBaseline p body) s = .next (s.put (answer 0x1C { c with candidate := none, committed := none }))

/-- The permit of a record is GRANTED in two cases alone: IN-SERVICE with the permit request ON, and HELD or DUE with
the retained-permit flag set. A newly registered record's permit is WITHHELD. -/
def Obligations.PermitIsDerived : Prop :=
  (∀ c : Circuit, c.permit = true ↔
    (c.service = .inService ∧ c.permitRequest = true) ∨
      ((c.service = .held ∨ c.service = .due) ∧ c.retained = true)) ∧
  ∀ cid owner x, (newCircuit cid owner x).permit = false

/-- A PASS takes a record to IN-SERVICE, but a DUE record with WITHDRAW-CONFIRM to AWAIT-CONFIRM, and leaves one that
stands there; a FAIL takes it to FAULTED with the reason of its class; both clear the retained-permit flag and touch
nothing else. NONE changes nothing. -/
def Obligations.VerdictMovesTheServiceState : Prop :=
  ∀ (c : Circuit) (cls : RunClass), c.service ≠ .held →
    (∀ state, ((c.service = .awaitConfirm ∨ (c.service = .due ∧ c.desc.safe = .withdrawConfirm)) → state = .awaitConfirm) →
      (¬(c.service = .awaitConfirm ∨ (c.service = .due ∧ c.desc.safe = .withdrawConfirm)) → state = .inService) →
      c.take .pass cls = { c with service := state, retained := false }) ∧
    (∀ reason, (cls = .breakage ∧ reason = .breakage ∨ cls = .misroute ∧ reason = .misroute ∨
        cls = .incomplete ∧ reason = .incomplete) →
      c.take .fail cls = { c with service := .faulted reason, retained := false }) ∧
    c.take .noVerdict cls = c

/-! ### Windows and hold changes -/

/-- SCHEDULE-WINDOW is judged in the order of R54: CLOCK-UNSET, the ranges (BAD-ARGUMENT), an EMPTY slot (TABLE-FULL);
one that passes writes the window into the lowest EMPTY slot, SCHEDULED, with WINDOW attention, and answers the slot. -/
def Obligations.ScheduleWindowTakesTheLowestEmptySlot : Prop :=
  ∀ (s : State) (p : Fin 4) (body : List Byte) (o c : DayMinute) (lead limit degrees taps : Nat) (fits : Prop),
    s.dev.takesLine p = true → body.length = 13 →
    o = ⟨fieldAt body 0 2, fieldAt body 2 2⟩ → c = ⟨fieldAt body 4 2, fieldAt body 6 2⟩ →
    lead = byteAt body 8 → limit = byteAt body 9 → degrees = byteAt body 10 → taps = fieldAt body 11 2 →
    (fits ↔ o.minute < 1440 ∧ c.minute < 1440 ∧ o.day * 1440 + o.minute < c.day * 1440 + c.minute ∧
      s.dev.clock.time.day * 1440 + s.dev.clock.time.minute < c.day * 1440 + c.minute ∧ lead ≤ 60 ∧ 5 ≤ limit ∧
      limit ≤ 240 ∧ degrees < 16 ∧ (degrees ≠ 0 ∨ taps ≠ 0)) →
    (s.dev.clock.unset = true →
      exec (.scheduleWindow p body) s = .next (s.put (s.dev.respond p 0x20 0x19 []))) ∧
    (s.dev.clock.unset = false → ¬fits →
      exec (.scheduleWindow p body) s = .next (s.put (s.dev.respond p 0x20 0x11 []))) ∧
    (s.dev.clock.unset = false → fits → (∀ w, (s.dev.windows.get w).isSome = true) →
      exec (.scheduleWindow p body) s = .next (s.put (s.dev.respond p 0x20 0x14 []))) ∧
    ∀ w, s.dev.clock.unset = false → fits → s.dev.windows.get w = none →
      (∀ v, v < w → (s.dev.windows.get v).isSome = true) →
      exec (.scheduleWindow p body) s = .next (s.put
        ((Device.raiseLine { s.dev with windows := s.dev.windows.set w (some
            { state := .scheduled, creator := p, openAt := o, closeAt := c, lead := lead, verifyLimit := limit
              degrees := (List.finRange 4).filter fun g => degrees.testBit g.val
              taps := (List.finRange 16).filter fun t => taps.testBit t.val
              closing := false, baseliningSince := none, verifyingSince := none, baselineSet := [], members := []
              unresolved := [] }) } .window).respond p 0x20 0x00 [BitVec.ofNat 8 w.val]))

/-- EXTEND-WINDOW writes a later close in SCHEDULED, BASELINING and OPEN without the closing flag; CLOSE-WINDOW writes
the wall time as the close of an OPEN window, a minute of 1440 or more carried into the day, sets the closing flag and,
while the clock runs, evaluates, after which the Arbiter judges (R94; that it is once and at the end of the event is
the model's reading, log 22, DEDUCED); WITHDRAW-WINDOW empties the slot in SCHEDULED, BASELINING, OVERDUE and DONE. Any
other state and an EMPTY slot are WRONG-STATE, a slot number above 15 and an unfit close BAD-ARGUMENT. -/
def Obligations.WindowIsExtendedClosedOrWithdrawn : Prop :=
  ∀ (s : State) (p : Fin 4) (body : List Byte) (put : Option Window → Device) (w : Fin 16),
    s.dev.takesLine p = true → (∀ z, put z = { s.dev with windows := s.dev.windows.set w z }) →
    (body.length = 5 → 16 ≤ byteAt body 0 →
      exec (.extendWindow p body) s = .next (s.put (s.dev.respond p 0x21 0x11 []))) ∧
    (body.length = 1 → 16 ≤ byteAt body 0 →
      exec (.closeWindow p body) s = .next (s.put (s.dev.respond p 0x22 0x11 [])) ∧
      exec (.withdrawWindow p body) s = .next (s.put (s.dev.respond p 0x23 0x11 []))) ∧
    (byteAt body 0 = w.val → s.dev.windows.get w = none →
      (body.length = 5 → exec (.extendWindow p body) s = .next (s.put (s.dev.respond p 0x21 0x17 []))) ∧
      (body.length = 1 → exec (.closeWindow p body) s = .next (s.put (s.dev.respond p 0x22 0x17 [])) ∧
        exec (.withdrawWindow p body) s = .next (s.put (s.dev.respond p 0x23 0x17 [])))) ∧
    ∀ y, byteAt body 0 = w.val → s.dev.windows.get w = some y →
      (body.length = 5 → ∀ (c : DayMinute) (moves : Prop), c = ⟨fieldAt body 1 2, fieldAt body 3 2⟩ →
        (moves ↔ y.state = .scheduled ∨ y.state = .baselining ∨ (y.state = .opened ∧ y.closing = false)) →
        (¬moves → exec (.extendWindow p body) s = .next (s.put (s.dev.respond p 0x21 0x17 []))) ∧
        (moves → c.minute < 1440 → y.closeAt.day * 1440 + y.closeAt.minute < c.day * 1440 + c.minute →
          exec (.extendWindow p body) s =
            .next (s.put ((put (some { y with closeAt := c })).respond p 0x21 0x00 []))) ∧
        (moves → ¬(c.minute < 1440 ∧ y.closeAt.day * 1440 + y.closeAt.minute < c.day * 1440 + c.minute) →
          exec (.extendWindow p body) s = .next (s.put (s.dev.respond p 0x21 0x11 [])))) ∧
      (body.length = 1 →
        (y.state ≠ .opened → exec (.closeWindow p body) s = .next (s.put (s.dev.respond p 0x22 0x17 []))) ∧
        (y.state = .opened → ∀ t d, t = s.dev.clock.time →
          d = (put (some { y with
              closeAt := ⟨(t.day + t.minute / 1440) % 65536, t.minute % 1440⟩, closing := true })).respond p 0x22 0x00 [] →
          (s.dev.clock.held = true → exec (.closeWindow p body) s = .next (s.put d)) ∧
          (s.dev.clock.held = false →
            exec (.closeWindow p body) s = .next (s.put (Device.arbitrate s.dev false d.evaluate)))) ∧
        ((y.state = .opened ∨ y.state = .verifying) →
          exec (.withdrawWindow p body) s = .next (s.put (s.dev.respond p 0x23 0x17 []))) ∧
        (¬(y.state = .opened ∨ y.state = .verifying) →
          exec (.withdrawWindow p body) s =
            .next (s.put (((put none).raiseLine .window).respond p 0x23 0x00 []))))

/-- Where the walk of an evaluation takes one window, from its state and the wall time: to BASELINING, OPEN, VERIFYING,
OVERDUE or DONE, with every field of its record as R59 to R62 leave it and no other window touched. On entering
BASELINING it asks, in ascending order, for a NORMAL BASELINE entry for each HEAD record captured and for a BASELINE
REQUEST upstream from each other; leaving BASELINING for OPEN it commits the candidates captured after its
baselining-since, and no other move touches a record. A window whose state changes raises WINDOW attention on the LINE
ports, and one whose state stays leaves the part as it was. An evaluation walks the windows in slot order and then
delivers one hold change to each circuit it touched, in index order: the windows that captured it at an OPEN, those
that went to VERIFYING with it among their members, and those in OPEN that list it now. -/
def Obligations.WindowIsWalkedForward : Prop :=
  (∀ (d e : Device) (w : Fin 16) (x : Window) (now : Nat) (early becomesOpen becomesClosed : Prop) (z : Window → Prop)
      (scope : List (Fin 256)),
    d.windows.get w = some x → now = d.clock.time.day * 1440 + d.clock.time.minute → 0 < x.verifyLimit →
    (early ↔ x.state = .scheduled ∨ x.state = .baselining) →
    (becomesOpen ↔ x.openAt.day * 1440 + x.openAt.minute ≤ now) →
    (becomesClosed ↔ x.closing = true ∨ x.closeAt.day * 1440 + x.closeAt.minute ≤ now) →
    scope = d.scopeOf x → e = d.walkWindow w → (∀ y, z y ↔ e.windows.get w = some y) →
    (∀ v, v ≠ w → e.windows.get v = d.windows.get v) ∧
    (x.state = .scheduled → ¬becomesOpen → 0 < x.lead → x.openAt.day * 1440 + x.openAt.minute ≤ now + x.lead →
      ∀ (y : Window) (ask : Device → Fin 256 → Device),
        y = { x with state := .baselining, baseliningSince := some ⟨d.clock.time, d.now⟩, baselineSet := scope } →
        (∀ b i, (b.circuit i = none → ask b i = b) ∧ ∀ c, b.circuit i = some c →
          ask b i = if c.desc.role = .head then b.enqueue i .baseline .normal
            else b.sendOpt c.desc.ingress.degree? (.request c.cid .baseline)) →
        z y ∧ e = scope.foldl ask (Device.raiseLine { d with windows := d.windows.set w (some y) } .window)) ∧
    (x.state = .scheduled → ¬becomesOpen → (x.lead = 0 ∨ now + x.lead < x.openAt.day * 1440 + x.openAt.minute) → z x) ∧
    (x.state = .baselining → ¬becomesOpen → z x) ∧
    (early → becomesOpen → ∀ y : Window,
      y = { x with
        state := .opened, members := scope
        baseliningSince := if x.state = .scheduled ∧ 0 < x.lead then some ⟨d.clock.time, d.now⟩ else x.baseliningSince
        baselineSet := if x.state = .scheduled ∧ 0 < x.lead then scope else x.baselineSet } →
      (¬becomesClosed → z y) ∧
      (becomesClosed → z { y with
        state := if scope = [] then .done else .verifying
        verifyingSince := some d.clock.time, closing := false, unresolved := scope })) ∧
    (x.state = .opened → ¬becomesClosed → z x) ∧
    (x.state = .opened → becomesClosed → z { x with
      state := if x.members = [] then .done else .verifying
      verifyingSince := some d.clock.time, closing := false, unresolved := x.members }) ∧
    (∀ t : WallTime, x.state = .verifying → x.verifyingSince = some t → x.unresolved ≠ [] →
      z (if t.day * 1440 + t.minute + x.verifyLimit ≤ now then { x with state := .overdue } else x)) ∧
    ((x.state = .verifying ∨ x.state = .overdue) → x.unresolved = [] → z { x with state := .done }) ∧
    (x.state = .overdue → x.unresolved ≠ [] → z x) ∧ (x.state = .done → z x) ∧
    (∀ y, z y → (y.state = x.state → e = d) ∧
      (y.state ≠ x.state → ∀ p, d.isLine p = true → hasAtt (e.ports.get p).attention .window = true)) ∧
    (∀ i c b since, x.state = .baselining → becomesOpen → x.baseliningSince = some since → d.circuit i = some c →
      c.candidate = some b →
      e.circuit i = some (if i ∈ scope ∧ since.instant < b.capturedAt then
        { c with committed := some ⟨b.inLevel, b.outLevel, b.time⟩, candidate := none } else c)) ∧
    (∀ i c, x.state = .baselining → d.circuit i = some c → c.candidate = none → e.circuit i = some c) ∧
    ((x.state = .baselining → ¬becomesOpen) → (x.state = .scheduled → x.baseliningSince = none ∧
        ∀ i c b, d.circuit i = some c → c.candidate = some b → b.capturedAt ≤ d.now) →
      e.circuits = d.circuits)) ∧
  ∀ (d e : Device), e = (List.finRange 16).foldl Device.walkWindow d → ∃ change : Fin 256 → HoldChange,
    (∀ i w, (w ∈ (change i).added ↔ ∃ x y, d.windows.get w = some x ∧ e.windows.get w = some y ∧
        (x.state = .scheduled ∨ x.state = .baselining) ∧ y.state ≠ .scheduled ∧ y.state ≠ .baselining ∧
        i ∈ y.members) ∧
      (w ∈ (change i).closed ↔ ∃ x y, d.windows.get w = some x ∧ e.windows.get w = some y ∧
        (x.state = .scheduled ∨ x.state = .baselining ∨ x.state = .opened) ∧
        (y.state = .verifying ∨ y.state = .overdue ∨ y.state = .done) ∧ i ∈ y.members) ∧
      (w ∈ (change i).held ↔ ∃ y, e.windows.get w = some y ∧ y.state = .opened ∧ i ∈ y.members)) ∧
    d.evaluate = (List.finRange 256).foldl
      (fun b i => if (change i).added = [] ∧ (change i).closed = [] then b else b.holdChange i (change i)) e

/-- The four cases of a hold change. A hold that begins sets or clears the retained-permit flag, stops the request
timer, takes the record to HELD and abandons its run with REFUSE HELD and CANCEL; one that ends takes it to DUE, with a
HIGH VERIFY entry at a HEAD and a REQUEST upstream and the request timer at any other; one that does both does both;
one that continues changes nothing. -/
def Obligations.HoldChangeMovesTheRecord : Prop :=
  ∀ (d : Device) (i : Fin 256) (c held : Circuit) (h : HoldChange) (due : Circuit → Device),
    d.circuit i = some c →
    held = { c with
      service := .held, attempts := 0, requestDeadline := none
      retained := decide (c.service = .inService ∧ c.desc.safe = .retain ∧ c.permit = true) } →
    (∀ b, due b = if c.desc.role = .head then
        Device.enqueue { d with circuits := d.circuits.set i (some { b with service := .due }) } i .verify .high
      else
        { Device.sendOpt d c.desc.ingress.degree? (.request c.cid .verify) with
          circuits := d.circuits.set i (some { b with
            service := .due, attempts := 1, requestDeadline := some (d.now + 1000 * d.timings.requestInterval) }) }) →
    (h.before ≠ [] → h.held ≠ [] → d.holdChange i h = d) ∧
    (h.before ≠ [] → h.held = [] → c.service = .held → d.holdChange i h = (due c).attendCircuit c.owner i) ∧
    (h.before = [] → d.runOf i = none →
      (h.held ≠ [] → c.service ≠ .held →
        d.holdChange i h =
          Device.attendCircuit { d with circuits := d.circuits.set i (some held) } c.owner i) ∧
      (h.held = [] → h.closed ≠ [] → c.service ≠ .due →
        d.holdChange i h = (due held).attendCircuit c.owner i)) ∧
    (h.before = [] → h.held ≠ [] → ∀ slot r, d.runOf i = some slot → d.runs.get slot = some r →
      ∃ e, d.holdChange i h = e ∧ e.circuits = d.circuits.set i (some { held with run := none }) ∧
        e.runs = d.runs.set slot none ∧ (∀ j, (e.injectors.get j).run ≠ some slot) ∧ (∀ g ∈ e.grants, g.slot ≠ slot) ∧
        e.taps = (if r.listen = .opened then d.releaseSlots slot else d).taps ∧ e.queue = d.queue ∧
        e.links = (Device.sendOpt (if r.role = .head then d else d.sendOpt r.up (.refuse c.cid r.id r.k .held)) r.down
          (.cancel c.cid r.id)).links)

/-! ### The clock -/

/-- HOLD-CLOCK stops the visible advance with a hold limit of 10 s; SET-CLOCK judges the ranges and then the hold,
writes the time, discards the pending tick and clears UNSET and SLIP, with CLOCK attention; ALIGN-CLOCK rounds the
running clock to the nearest minute and evaluates. A hold ends by RELEASE-CLOCK, or by its limit with CLOCK attention:
the pending tick is applied, the flags are cleared and one evaluation made. The wrong state is answered WRONG-STATE.
That the limit finds the time base at its deadline at least is the model's choice (log 3), and that the Arbiter judges
once, at the end of an event that evaluates (R94), is its reading (log 22, DEDUCED). -/
def Obligations.ClockIsHeldSetAlignedAndReleased : Prop :=
  ∀ (s : State) (p : Fin 4) (k ended : Clock) (t : WallTime), s.dev.clock = k → k.time = t →
    ended = { k with
      time := if k.pendingTick then t.tick else t, pendingTick := false, held := false, holdDeadline := none } →
    (s.dev.takesLine p = true →
      (k.held = true →
        exec (.holdClock p []) s = .next (s.put (s.dev.respond p 0x28 0x17 [])) ∧
        exec (.alignClock p []) s = .next (s.put (s.dev.respond p 0x2B 0x17 [])) ∧
        exec (.releaseClock p []) s = .next (s.put (Device.arbitrate s.dev false
          (Device.evaluate { s.dev.respond p 0x29 0x00 [] with clock := ended })))) ∧
      (k.held = false →
        exec (.holdClock p []) s = .next (s.put
          (Device.respond { s.dev with
            clock := { k with held := true, pendingTick := false, holdDeadline := some (s.dev.now + 10000) } }
            p 0x28 0x00 [])) ∧
        exec (.releaseClock p []) s = .next (s.put (s.dev.respond p 0x29 0x17 [])) ∧
        exec (.alignClock p []) s = .next (s.put (Device.arbitrate s.dev false
          (Device.evaluate { s.dev.respond p 0x2B 0x00 [] with
            clock := { k with time :=
              if t.second < 30 then ⟨t.day, t.minute, 0⟩ else if t.minute < 1439 then ⟨t.day, t.minute + 1, 0⟩
              else ⟨(t.day + 1) % 65536, 0, 0⟩ } })))) ∧
      ∀ body v, body.length = 5 → v = ⟨fieldAt body 0 2, fieldAt body 2 2, byteAt body 4⟩ →
        ((2048 ≤ v.minute ∨ 60 ≤ v.second) →
          exec (.setClock p body) s = .next (s.put (s.dev.respond p 0x2A 0x11 []))) ∧
        (v.minute < 2048 → v.second < 60 → k.held = false →
          exec (.setClock p body) s = .next (s.put (s.dev.respond p 0x2A 0x17 []))) ∧
        (v.minute < 2048 → v.second < 60 → k.held = true →
          exec (.setClock p body) s = .next (s.put
            ((Device.raiseLine { s.dev with
              clock := { k with time := v, pendingTick := false, unset := false, slip := false } } .clock).respond
              p 0x2A 0x00 [])))) ∧
    (s.dev.rst = false → ∀ deadline b, k.holdDeadline = some deadline →
      b = { s.dev with now := max s.dev.now deadline } →
      exec .holdLimit s = .next (s.put (Device.arbitrate b false
        ((Device.evaluate { b with clock := ended }).raiseLine .clock))))

/-- A tick adds one to the second; at 59 it carries the minute, and a minute of 1439 or more carries the day; during a
hold it sets the pending tick, or SLIP with CLOCK attention. The divider gives a tick a second while the source is
INTERNAL; a PPS edge is a tick, brings the divider into step and restores the source with CLOCK attention; 2 s without
one fall back to INTERNAL with PPS-LOST and CLOCK attention. That a tick and the loss find the time base at their
instant at least (log 3) and that a command is the level of one line (log 5) are the model's choices, and that the
Arbiter judges once, after the evaluation of a carry (R94), is its reading (log 22, DEDUCED). -/
def Obligations.TicksComeFromDividerOrPps : Prop :=
  (∀ t : WallTime, t.tick = if t.second < 59 then { t with second := t.second + 1 }
    else if t.minute < 1439 then ⟨t.day, t.minute + 1, 0⟩ else ⟨(t.day + 1) % 65536, 0, 0⟩) ∧
  ∀ (s : State) (k : Clock) (taken : Device → Device), s.dev.clock = k →
    (∀ d, (d.clock.held = true → d.clock.pendingTick = true →
        taken d = Device.raiseLine { d with clock := { d.clock with slip := true } } .clock) ∧
      (d.clock.held = true → d.clock.pendingTick = false →
        taken d = { d with clock := { d.clock with pendingTick := true } }) ∧
      (d.clock.held = false → d.clock.time.second < 59 →
        taken d = { d with clock := { d.clock with time := d.clock.time.tick } }) ∧
      (d.clock.held = false → 59 ≤ d.clock.time.second →
        taken d = Device.arbitrate d false
          (Device.evaluate { d with clock := { d.clock with time := d.clock.time.tick } }))) →
    (k.source = .internal → exec .clockTick s = .next (s.put (taken { s.dev with
      now := max s.dev.now k.dividerDue, clock := { k with dividerDue := k.dividerDue + 1000 } }))) ∧
    (k.source = .pps → exec .clockTick s = .next s) ∧
    (∀ line high d, d = { s.dev with lineIn := s.dev.lineIn.set line high } →
      (s.dev.ppsIn = false → d.ppsIn = true → ∀ e, e = { d with clock := { k with
          source := .pps, ppsLost := if k.source = .internal then false else k.ppsLost
          dividerDue := d.now + 1000, ppsDeadline := some (d.now + 2000) } } →
        exec (.ppsEdge line high) s =
          .next (s.put (taken (if k.source = .internal then e.raiseLine .clock else e)))) ∧
      ((s.dev.ppsIn = true ∨ d.ppsIn = false) → (s.dev.freezeIn = false ∨ d.freezeIn = true) →
        exec (.ppsEdge line high) s = .next (s.put d))) ∧
    (s.dev.rst = false → ∀ deadline, k.ppsDeadline = some deadline →
      exec .ppsLost s = .next (s.put (Device.raiseLine { s.dev with
        now := max s.dev.now deadline
        clock := { k with
          source := .internal, ppsLost := true, ppsDeadline := none
          dividerDue := if k.source = .pps then deadline else k.dividerDue } } .clock)))

/-! ### Taps, the configuration and the resets -/

/-- SET-TAP is judged in the order of R27: ranges (BAD-ARGUMENT), a change of function or degree of a tap that a record
references or that a slot listens on (IN-USE), another tap with the line function (CONFLICT). A body gives settings
exactly where each field lies in its range, and they hold each field as the body spells it. One that passes writes the
settings and leaves reading and slots, and the Arbiter judges (R94; at the end of the event, log 22, DEDUCED); PLANT
attention is raised where the light class of a tap that was and stays LINE-IN changes (that it must have been LINE-IN
before is the model's reading, log 23, DEDUCED). -/
def Obligations.SetTapIsJudgedAndWritten : Prop :=
  (∀ (body : List Byte) (n : TapSettings) (word : Nat → Int), (∀ at', word at' =
      if fieldAt body at' 2 < 32768 then (fieldAt body at' 2 : Int) else (fieldAt body at' 2 : Int) - 65536) →
    (tapSettingsAt body 1 = some n ↔
      tapFnTable[byteAt body 1]? = some n.fn ∧
      ((byteAt body 2 = 255 ∧ n.degree = none) ∨ ∃ g : Fin 4, byteAt body 2 = g.val ∧ n.degree = some g) ∧
      n.low = word 3 ∧ n.high = word 5 ∧
      n.trim = (if byteAt body 7 < 128 then (byteAt body 7 : Int) else (byteAt body 7 : Int) - 256) ∧
      -600 ≤ n.low ∧ n.low ≤ n.high ∧ n.high ≤ 250 ∧ -8 ≤ n.trim ∧ n.trim ≤ 7 ∧
      (n.degree.isSome = true ↔ n.fn = .lineIn ∨ n.fn = .lineOut))) ∧
  ∀ (s : State) (p : Fin 4) (body : List Byte), s.dev.takesLine p = true → body.length = 8 →
    ((16 ≤ byteAt body 0 ∨ tapSettingsAt body 1 = none) →
      exec (.setTap p body) s = .next (s.put (s.dev.respond p 0x30 0x11 []))) ∧
    ∀ (t : Fin 16) (n : TapSettings) (x : Tap) (moves lineFn taken : Prop) (d : Device),
      byteAt body 0 = t.val → tapSettingsAt body 1 = some n → s.dev.taps.get t = x →
      (lineFn ↔ n.fn = .lineIn ∨ n.fn = .lineOut) → (moves ↔ x.settings.fn ≠ n.fn ∨ x.settings.degree ≠ n.degree) →
      (taken ↔ lineFn ∧ ∃ u, u ≠ t ∧ (s.dev.taps.get u).settings.fn = n.fn ∧
        (s.dev.taps.get u).settings.degree = n.degree) →
      d = { s.dev with taps := s.dev.taps.set t { x with settings := n } } →
      (moves → ((∃ i c, s.dev.circuit i = some c ∧ s.dev.references c.desc t = true) ∨
          ∃ j, (x.slots.get j).isSome = true) →
        exec (.setTap p body) s = .next (s.put (s.dev.respond p 0x30 0x16 []))) ∧
      ((moves → (∀ i c, s.dev.circuit i = some c → s.dev.references c.desc t = false) ∧
          ∀ j, x.slots.get j = none) →
        (taken → exec (.setTap p body) s = .next (s.put (s.dev.respond p 0x30 0x15 []))) ∧
        (¬taken → exec (.setTap p body) s = .next (s.put (Device.arbitrate s.dev false
          ((if x.settings.fn = .lineIn ∧ n.fn = .lineIn ∧ x.lightClass ≠ (d.taps.get t).lightClass then
            d.raiseLine .plant else d).respond p 0x30 0x00 [])))))

/-- Bytes are a valid image exactly where R177's tests hold, and it holds each item as the bytes spell it. A valid
image, carried by CONFIGURE or read by the load, is applied in one event: roles, notify modes and masks, tap settings,
line functions, timings and the running node id take its values, enabled links go to DOWN and send HELLO, PPS
supervision starts, and nothing else changes; a port made OFF takes its mode and mask like any other and has the rest
of its context at the reset values (log 39, DEDUCED), any other keeps what it got while the part was UNCONFIGURED (log
40, DEDUCED), and a line that is high when it becomes PPS-IN is no edge (log 32, DEDUCED). CONFIGURE is WRONG-STATE for
a CONFIGURED part and BAD-ARGUMENT for an invalid image; a load that ends with none, or with an invalid one, only
clears its flag, and one whose flag is clear is discarded. The load reads the image this part stored where it stored
one, and none where a store failed or was cut short (the model's choice, log 6). -/
def Obligations.ImageIsAppliedWholeOrNotAtAll : Prop :=
  (∀ (bs : List Byte) (im : Image) (g : Settings), im.settings = g → (parseImage bs = some im ↔
    bs.length = 164 ∧ (crc32 (bs.take 160)).toNat = ofBe (bs.drop 160).reverse ∧ fieldAt bs 0 4 = 0xA73D1E64 ∧
    g.nodeId = fieldAt bs 4 2 ∧ 1 ≤ g.nodeId ∧ g.nodeId ≤ 65534 ∧
    (∀ p : Fin 4, roleTable[byteAt bs (6 + p)]? = some (g.roles.get p) ∧ byteAt bs (11 + 2 * p) < 128 ∧
      notifyModeTable[byteAt bs (10 + 2 * p)]? = some (g.notify.get p).mode ∧
      (g.notify.get p).mask = BitVec.ofNat 7 (byteAt bs (11 + 2 * p))) ∧
    (∀ t : Fin 16, tapSettingsAt bs (18 + 7 * t) = some (im.taps.get t)) ∧
    (∀ l : Fin 8, lineFnTable[byteAt bs (130 + l)]? = some (g.lines.get l)) ∧
    (∀ h : Fin 4, byteAt bs (138 + 3 * h) < 2 ∧ (g.degrees.get h).enabled = decide (byteAt bs (138 + 3 * h) = 1) ∧
      (g.degrees.get h).expected = fieldAt bs (139 + 3 * h) 2 ∧ (g.degrees.get h).expected ≤ 65534) ∧
    g.timings = ⟨byteAt bs 150, byteAt bs 151, byteAt bs 152, fieldAt bs 153 2, byteAt bs 155, fieldAt bs 156 2,
      fieldAt bs 158 2⟩ ∧
    (1 ≤ g.timings.armBase ∧ g.timings.armBase ≤ 10) ∧ (1 ≤ g.timings.reportBase ∧ g.timings.reportBase ≤ 10) ∧
    (5 ≤ g.timings.outcomeWait ∧ g.timings.outcomeWait ≤ 120) ∧
    (30 ≤ g.timings.requestInterval ∧ g.timings.requestInterval ≤ 600) ∧
    (1 ≤ g.timings.preemptTime ∧ g.timings.preemptTime ≤ 30) ∧
    (30 ≤ g.timings.promotionAge ∧ g.timings.promotionAge ≤ 1800) ∧
    (10 ≤ g.timings.deferDelay ∧ g.timings.deferDelay ≤ 600) ∧ (∃ p, g.roles.get p = .line) ∧
    ∀ t u, t ≠ u → ((im.taps.get t).fn = .lineIn ∨ (im.taps.get t).fn = .lineOut) →
      (im.taps.get t).fn = (im.taps.get u).fn → (im.taps.get t).degree ≠ (im.taps.get u).degree)) ∧
  ∀ (s : State) (applied : Image → Device → Prop),
    (∀ im d, applied im d ↔ d.running = some im.settings ∧ d.loading = false ∧
      (∀ p, d.ports.get p = if im.settings.roles.get p = .off then
          { PortCtx.reset with
            mode := (im.settings.notify.get p).mode, mask := (im.settings.notify.get p).mask
            shifted := (s.dev.ports.get p).shifted }
        else { s.dev.ports.get p with
          mode := (im.settings.notify.get p).mode, mask := (im.settings.notify.get p).mask, pulse := none }) ∧
      (∀ t, d.taps.get t = { s.dev.taps.get t with settings := im.taps.get t }) ∧
      (∀ g, d.links.get g = if (im.settings.degrees.get g).enabled then
          { s.dev.links.get g with
            state := .down, sent := wireBytes (.hello im.settings.nodeId g.val), helloDue := s.dev.now + 1000 }
        else s.dev.links.get g) ∧
      d.clock = { s.dev.clock with
        ppsDeadline := if ∃ l, im.settings.lines.get l = .ppsIn then some (s.dev.now + 2000) else none } ∧
      { d with
        running := s.dev.running, loading := s.dev.loading, ports := s.dev.ports, taps := s.dev.taps
        links := s.dev.links, clock := s.dev.clock } = s.dev) →
    (∀ (p : Fin 4) (body : List Byte), s.dev.takes p = true → body.length = 164 →
      (s.dev.configured = true → exec (.configure p body) s = .next (s.put (s.dev.respond p 0x38 0x17 []))) ∧
      (s.dev.configured = false → parseImage body = none →
        exec (.configure p body) s = .next (s.put (s.dev.respond p 0x38 0x11 []))) ∧
      ∀ im, s.dev.configured = false → parseImage body = some im → ∃ d : Device, applied im d ∧
        exec (.configure p body) s =
          .next (s.put (if im.settings.roles.get p = .off then d else d.respond p 0x38 0x00 []))) ∧
    (s.dev.rst = false →
      (∀ bytes, s.dev.loading = false → exec (.loadEnd bytes) s = .next s) ∧
      ∀ bytes, s.dev.loading = true → ∀ read : Option (List Byte),
        (bytes = none → read = none) → (bytes.isSome = true → s.dev.eeprom = .fromOutside → read = bytes) →
        (∀ bs, bytes.isSome = true → s.dev.eeprom = .stored bs → read = some bs) →
        (bytes.isSome = true → s.dev.eeprom = .spoiled → read = none) →
        (read.bind parseImage = none → exec (.loadEnd bytes) s = .next (s.put { s.dev with loading := false })) ∧
        ∀ im, read.bind parseImage = some im → ∃ d : Device, applied im d ∧ exec (.loadEnd bytes) s = .next (s.put d))

/-- STORE-CONFIG starts a store of the running image with the tap settings as they stand and the pending node id if
there is one, the port busy and no response yet; its end answers OK, or STORE-FAILED with a check, and clears the store.
SET-NODE-ID sets the pending node id. -/
def Obligations.StoreKeepsTheRunningImage : Prop :=
  ∀ (s : State) (p : Fin 4),
    (s.dev.takesLine p = true →
      (s.dev.storing.isSome = true → exec (.storeConfig p []) s = .next (s.put (s.dev.respond p 0x39 0x17 []))) ∧
      (∀ g im, s.dev.storing = none → s.dev.running = some g →
        im.settings = { g with nodeId := s.dev.pendingNode.getD g.nodeId } →
        (∀ t, im.taps.get t = (s.dev.taps.get t).settings) →
        exec (.storeConfig p []) s = .next (s.put { s.dev with
          storing := some ⟨p, imageBytes im⟩, eeprom := .spoiled })) ∧
      ∀ body v, body.length = 2 → v = fieldAt body 0 2 →
        (1 ≤ v → v ≤ 65534 → exec (.setNodeId p body) s =
          .next (s.put (Device.respond { s.dev with pendingNode := some v } p 0x3A 0x00 []))) ∧
        ((v = 0 ∨ 65534 < v) → exec (.setNodeId p body) s = .next (s.put (s.dev.respond p 0x3A 0x11 [])))) ∧
    (s.dev.rst = false →
      (∀ failed, s.dev.storing = none → exec (.storeEnd failed) s = .next s) ∧
      ∀ st, s.dev.storing = some st →
        exec (.storeEnd none) s = .next (s.put
          (Device.respond { s.dev with storing := none, eeprom := .stored st.bytes } st.port 0x39 0x00 [])) ∧
        ∀ stage, exec (.storeEnd (some stage)) s = .next (s.put
          ((Device.respond { s.dev with storing := none, eeprom := .spoiled } st.port 0x39 0x1B []).raiseCheck
            (.storeFailed stage))))

/-- RESTART and the RST line put every block at its reset values; the clock keeps its time, UNSET and SLIP, the time
base runs on, and what is outside the part stays. RESTART begins the load at once, the RST line at its release, and
power-on reset, which starts the clock and the time base afresh, when RST is not asserted. While RST is asserted no
transaction, request or message does anything (log 4, DEDUCED). The model's choices are the instant of the divider's next
tick, kept across RESTART and RST and 1000 ms after power-on, with the next HELLO at 0 and nothing yet shifted out or
sent (log 27, DESIGN CHOICE), the outside levels of the lines, which no reset changes (log 5, DESIGN CHOICE), what the
EEPROM holds (log 6, DESIGN CHOICE) and the counter of filler bytes (log 9, DESIGN CHOICE). -/
def Obligations.ResetsClearEveryBlock : Prop :=
  ∀ (s : State) (fresh : Clock → Device),
    (∀ k, fresh k = { Device.powerOn with
      now := s.dev.now, draws := s.dev.draws, rst := s.dev.rst, lineIn := s.dev.lineIn, eeprom := s.dev.eeprom
      clock := { k with
        held := false, pendingTick := false, source := .internal, ppsLost := false, holdDeadline := none
        ppsDeadline := none } }) →
    (∀ p, s.dev.takesLine p = true →
      exec (.restart p []) s = .next (s.put { fresh s.dev.clock with loading := true })) ∧
    exec .rstAsserted s = .next (s.put { fresh s.dev.clock with rst := true }) ∧
    (s.dev.rst = true → exec .rstReleased s = .next (s.put { s.dev with rst := false, loading := true })) ∧
    (s.dev.rst = false → exec .rstReleased s = .next s) ∧
    exec .powerOnReset s = .next (s.put
      { fresh Clock.powerOn with now := 0, clock := Clock.powerOn, loading := !s.dev.rst }) ∧
    (s.dev.rst = true → ∀ p n,
      exec (.spiTransaction p n) s = .next s ∧ (∀ x ∈ clientCommands, ∀ body, exec (x.form p body) s = .next s) ∧
      (∀ bytes, exec (.undecodedRequest p bytes) s = .next s ∧ exec (.frameDiscarded p bytes) s = .next s) ∧
      (∀ m, exec (commandOf p m) s = .next s) ∧ ∀ node degree, exec (.hello p node degree) s = .next s)

/-! ### What the taps deliver -/

/-- A delivery writes the sixteen readings, with PLANT attention where the class of a LINE-IN tap that had a reading
changes. The level is the reading with the trim, clamped to −600..250; the class is DARK below −400 or with no level,
then UNDER, OVER or NORMAL against the limits. -/
def Obligations.ReadingsFormLevelsAndClasses : Prop :=
  (∀ (s : State) (readings : Table Int 16) (d : Device) (raised : Prop), s.dev.rst = false →
    d = { s.dev with taps := s.dev.taps.mapIdx fun t x => ({ x with reading := some (readings.get t) } : Tap) } →
    (raised ↔ ∃ t x, s.dev.taps.get t = x ∧ x.reading.isSome = true ∧ x.settings.fn = .lineIn ∧
      x.lightClass ≠ (d.taps.get t).lightClass) →
    (raised → exec (.tapReading readings) s = .next (s.put (d.raiseLine .plant))) ∧
    (¬raised → exec (.tapReading readings) s = .next (s.put d))) ∧
  ∀ x : Tap, (x.reading = none → x.level = none ∧ x.lightClass = .dark) ∧
    ∀ r v, x.reading = some r → v = max (-600) (min 250 (r + x.settings.trim)) →
      x.level = some v ∧ (v < -400 → x.lightClass = .dark) ∧
      (-400 ≤ v → v < x.settings.low → x.lightClass = .under) ∧
      (-400 ≤ v → x.settings.low ≤ v → x.settings.high < v → x.lightClass = .over) ∧
      (-400 ≤ v → x.settings.low ≤ v → v ≤ x.settings.high → x.lightClass = .normal)

/-- A decoded frame is offered to the occupied slots of its tap on its channel: a good one with the slot's circuit id
adds to the good count with its level, a bad one to the bad count, both held at 255; that the level sum and its count
go on past that is the model's reading (log 25, DEDUCED). The sighting of a slot is SEEN from three good frames on,
NOT-SEEN with none of either, GARBLED otherwise, and SEEN alone has a level, the mean with the trim. -/
def Obligations.CodeFramesAreCountedAndJudged : Prop :=
  (∀ (s : State) (t : Fin 16) (channel : Nat) (word : BitVec 30) (level : Int), s.dev.rst = false →
    ∃ x, exec (.codeFrame t channel word level) s = .next (s.put { s.dev with taps := s.dev.taps.set t x }) ∧
      x.settings = (s.dev.taps.get t).settings ∧ x.reading = (s.dev.taps.get t).reading ∧
      ∀ j y, (s.dev.taps.get t).slots.get j = y → ∀ z, x.slots.get j = z →
        (y = none → z = none) ∧
        ∀ a, y = some a →
          ((a.channel ≠ channel ∨ (codeFrameGood word = true ∧ (codeFrameId word).toNat ≠ a.cid)) → z = some a) ∧
          (a.channel = channel → codeFrameGood word = false → z = some { a with bad := min 255 (a.bad + 1) }) ∧
          (a.channel = channel → codeFrameGood word = true → (codeFrameId word).toNat = a.cid →
            z = some { a with
              good := min 255 (a.good + 1), levelSum := a.levelSum + level, levelCount := a.levelCount + 1 })) ∧
  ∀ (a : ListenSlot) (trim : Int),
    (3 ≤ a.good → a.sighting = .seen ∧ a.level trim = some (meanLevel a.levelSum a.levelCount + trim)) ∧
    ((a.good = 1 ∨ a.good = 2) → a.sighting = .garbled ∧ a.level trim = none) ∧
    (a.good = 0 → 1 ≤ a.bad → a.sighting = .garbled ∧ a.level trim = none) ∧
    (a.good = 0 → a.bad = 0 → a.sighting = .notSeen ∧ a.level trim = none)

/-! ### The Arbiter -/

/-- The eligible-after of an entry passing and FREEZE-IN deasserted call for a judgement of grants, the preempt time of
an URGENT entry passing for one of preemption too; where there is no such entry or instant, nothing happens. That an
expiry finds the time base at its instant at least (log 3) and that FREEZE-IN changes by the level of one line (log 5)
are the model's choices, and that the Arbiter judges once, at the end of the event, is its reading (log 22, DEDUCED).
-/
def Obligations.ArbiterJudgesAtItsEvents : Prop :=
  ∀ (s : State),
    (s.dev.rst = false → ∀ i kind,
      (s.dev.queued i kind = none →
        exec (.eligibleAfter i kind) s = .next s ∧ exec (.preemptTime i kind) s = .next s) ∧
      ∀ e, s.dev.queued i kind = some e →
        (e.eligibleAfter = none → exec (.eligibleAfter i kind) s = .next s) ∧
        (e.cls ≠ .urgent → exec (.preemptTime i kind) s = .next s ∧
          ∀ t b, e.eligibleAfter = some t → b = { s.dev with now := max s.dev.now t } →
            exec (.eligibleAfter i kind) s = .next (s.put (Device.arbitrate b false b))) ∧
        (e.cls = .urgent →
          (∀ b, b = { s.dev with now := max s.dev.now (e.classTime + 1000 * s.dev.timings.preemptTime) } →
            exec (.preemptTime i kind) s = .next (s.put (Device.arbitrate b true b))) ∧
          ∀ t b, e.eligibleAfter = some t → b = { s.dev with now := max s.dev.now t } →
            exec (.eligibleAfter i kind) s = .next (s.put (Device.arbitrate b
              (decide (e.classTime + 1000 * s.dev.timings.preemptTime ≤ b.now)) b)))) ∧
    ∀ line high d, d = { s.dev with lineIn := s.dev.lineIn.set line high } →
      (s.dev.ppsIn = true ∨ d.ppsIn = false) →
      (s.dev.freezeIn = true → d.freezeIn = false →
        exec (.freezeInChange line high) s = .next (s.put (Device.arbitrate s.dev false d))) ∧
      ((s.dev.freezeIn = false ∨ d.freezeIn = true) → exec (.freezeInChange line high) s = .next (s.put d))

/-- The entry a grant takes is eligible, of the highest class, and of the smallest arrival number in it; the run a
preemption takes has the latest grant instant of those that may be taken. Where nothing can be granted or preempted the
judgement changes nothing. With no URGENT entry queued, it ends only when no FREE injector or no eligible entry is left;
with one, the bound of log 22 (DEDUCED) on the number of grants and preemptions is left out here. -/
def Obligations.ArbiterChoosesTheBestAndGoesOn : Prop :=
  ∀ (d : Device),
    (∀ e, d.best = some e → e ∈ d.queue ∧ d.eligible e = true ∧
      ∀ x ∈ d.queue, d.eligible x = true → x.cls.rank ≤ e.cls.rank ∧ (x.cls = e.cls → e.arrival ≤ x.arrival)) ∧
    (∀ g, d.victim = some g → g ∈ d.grants ∧ d.preemptable g = true ∧
      ∀ x ∈ d.grants, d.preemptable x = true → x.grantedAt ≤ g.grantedAt) ∧
    (d.canGrant = false → d.canPreempt = false → ∀ before judge, Device.arbitrate before judge d = d) ∧
    ((∀ x ∈ d.queue, x.cls ≠ .urgent) → ∀ before judge, (Device.arbitrate before judge d).canGrant = false)

/-- The taps a run of a circuit needs are its ingress tap, its egress tap and every other LINE-OUT or DROP tap, the
first two as the record names them or as the lowest tap with the line function for the degree; every needed tap with a
free slot is what makes a listen possible, and a claim takes on each the lowest free slot, with both counts at 0, and
changes nothing else; a release frees the run's slots alone. A grant first promotes the LOW and NORMAL entries that
have waited longer than the promotion age, takes the best entry from the queue, puts the lowest FREE injector in
GRANTED with a grant record, opens a head run in ANNOUNCING in the lowest free slot, attaches it, claims its listen
slots and uses the next run number; it sends ANNOUNCE for hop 1 on a link that is UP, and ends INCOMPLETE at hop 1,
LINK-DOWN, on any other. A preemption sends CANCEL, frees run, injector and slots, puts the run back with its old
class, arrival number and class time or merges it into the entry that waits, and ends with the judgement of a staged
edit (R20 and the model's reading of it, log 24). -/
def Obligations.GrantOpensAndPreemptionPutsBack : Prop :=
  ∀ (d : Device),
    (∀ (slot : Fin 32) (cid : Nat) (x : Desc) (isIn isOut : Fin 16 → Prop) (needs : Fin 16 → Purpose → Prop)
        (line : TapFn → Fin 4 → Fin 16 → Prop),
      (∀ fn g t, line fn g t ↔
        ((d.taps.get t).settings.fn = fn ∧ (d.taps.get t).settings.degree = some g) ∧
        ∀ u, u < t → ¬((d.taps.get u).settings.fn = fn ∧ (d.taps.get u).settings.degree = some g)) →
      (∀ t, isIn t ↔ x.ingress = .tap t ∨ ∃ g, x.ingress = .degree g ∧ line .lineIn g t) →
      (∀ t, isOut t ↔ x.egress = .tap t ∨ ∃ g, x.egress = .degree g ∧ line .lineOut g t) →
      (∀ t purpose, needs t purpose ↔ (isIn t ∧ purpose = .ingress) ∨ (¬isIn t ∧ isOut t ∧ purpose = .expectedEgress) ∨
        (¬isIn t ∧ ¬isOut t ∧ ((d.taps.get t).settings.fn = .lineOut ∨ (d.taps.get t).settings.fn = .drop) ∧
          purpose = .watch)) →
      (d.canListen x = true ↔ ∀ t purpose, needs t purpose → ∃ j, (d.taps.get t).slots.get j = none) ∧
      { d.claim slot cid x with taps := d.taps } = d ∧
      (∀ t, (∀ purpose, ¬needs t purpose) → (d.claim slot cid x).taps.get t = d.taps.get t) ∧
      (∀ t purpose j, needs t purpose → (d.taps.get t).slots.get j = none →
        (∀ k, k < j → ((d.taps.get t).slots.get k).isSome = true) →
        (d.claim slot cid x).taps.get t = { d.taps.get t with
          slots := (d.taps.get t).slots.set j (some ⟨slot, cid, x.channel, purpose, 0, 0, 0, 0⟩) }) ∧
      { d.releaseSlots slot with taps := d.taps } = d ∧
      ∀ t, { (d.releaseSlots slot).taps.get t with slots := (d.taps.get t).slots } = d.taps.get t ∧
        ∀ j, (((d.releaseSlots slot).taps.get t).slots.get j = none ↔
            (d.taps.get t).slots.get j = none ∨ ∃ a, (d.taps.get t).slots.get j = some a ∧ a.run = slot) ∧
          ∀ a, (d.taps.get t).slots.get j = some a → a.run ≠ slot →
            ((d.releaseSlots slot).taps.get t).slots.get j = some a) ∧
    (∀ e, d.promote = e → { e with queue := d.queue } = d ∧ e.queue = d.queue.map fun x =>
      if x.classTime + 1000 * d.timings.promotionAge < d.now then
        (if x.cls = .low then { x with cls := .normal, classTime := d.now }
          else if x.cls = .normal then { x with cls := .high, classTime := d.now } else x)
      else x) ∧
    (∀ b e j slot c g, d.promote = b → b.best = some e → b.freeInjector = some j → b.runs.firstFree = some slot →
      b.circuit e.circuit = some c → c.desc.role = .head → c.desc.egress = .degree g →
      ∀ (r : Run) (m : Device),
        r = { id := ⟨b.nodeId, b.nextRun⟩, circuit := e.circuit, kind := e.kind, role := .head, k := 0, n := c.desc.n
              phase := .announcing, up := none, down := some g, dwell := c.desc.dwell
              deadline := b.now + 1000 * (b.timings.armBase * (c.desc.n - 1)), listen := .opened, own := none
              hopList := ⟨[], false⟩ } →
        m = { b with
          runs := b.runs.set slot (some r)
          nextRun := if b.nextRun < 65535 then b.nextRun + 1 else 1
          queue := b.queue.filter fun x => !(x.circuit == e.circuit && x.kind == e.kind)
          injectors := b.injectors.set j (.granted slot)
          grants := b.grants ++ [⟨slot, j, e.circuit, e.kind, e.cls, e.arrival, e.classTime, b.now⟩]
          circuits := b.circuits.set e.circuit (some { c with run := some ⟨r.id, e.kind⟩ })
          taps := (b.claim slot c.cid c.desc).taps } →
        ((b.links.get g).state = .up → d.grant = m.send g (.announce c.cid r.id e.kind 1 c.desc.n c.desc.dwell)) ∧
        ((b.links.get g).state ≠ .up →
          d.grant = m.endHead slot ⟨.incomplete, some 1, some (.peer .linkDown)⟩ false)) ∧
    ∀ v r c, d.victim = some v → d.runs.get v.slot = some r → d.circuit r.circuit = some c → v.circuit = r.circuit →
      v.kind = r.kind → c.desc.role = .head →
      ∃ t : Device, d.preempt = t.judgeStaged r.circuit ∧ t.runs = d.runs.set v.slot none ∧
        (∀ j, t.injectors.get j = if (d.injectors.get j).run = some v.slot then .free else d.injectors.get j) ∧
        t.taps = (if r.listen = .opened then d.releaseSlots v.slot else d).taps ∧
        t.grants = d.grants.filter (fun x => x.slot != v.slot) ∧
        (d.queued r.circuit r.kind = none →
          t.queue = d.queue ++ [⟨v.circuit, v.kind, v.cls, v.arrival, v.classTime, none⟩]) ∧
        ((d.queued r.circuit r.kind).isSome = true → t.queue = d.queue.map fun x =>
          if x.circuit = r.circuit ∧ x.kind = r.kind ∧ x.cls.rank < v.cls.rank then
            { x with cls := v.cls, classTime := d.now } else x) ∧
        t.circuits = d.circuits.set r.circuit (some { c with run := none }) ∧ t.windows = d.windows ∧
        t.links = (d.sendOpt r.down (.cancel c.cid r.id)).links

/-! ### Probe runs: messages -/

/-- An ANNOUNCE is refused, on the degree it came on, with the reason of the first test of R110 that fails; it opens no
run and changes nothing but the silence deadline of its link. -/
def Obligations.AnnounceIsRefusedInOrder : Prop :=
  ∀ (s : State) (g : Fin 4) (cid : Nat) (run : RunId) (kind : Kind) (hop n dwell : Nat) (h : Device),
    s.dev.linkTakes g = true → (Message.announce cid run kind hop n dwell).wf = true → h = s.dev.heard g →
    ∀ (cmd : Instr) (refused : Nat → Reason → Device), cmd = Instr.announce g cid run kind hop n dwell →
      (∀ at' reason, refused at' reason = h.send g (.refuse cid run at' reason)) →
      (s.dev.findCid cid = none → exec cmd s = .next (s.put (refused hop .unknown))) ∧
      ∀ i c, s.dev.findCid cid = some i → s.dev.circuit i = some c →
        ∀ fits, (fits ↔ c.desc.role ≠ .head ∧ c.desc.k = hop ∧ c.desc.n = n ∧ c.desc.ingress = .degree g ∧
          1 ≤ dwell ∧ dwell ≤ 20) →
        (¬ fits → exec cmd s = .next (s.put (refused hop .mismatch))) ∧
        (fits → c.service = .held → exec cmd s = .next (s.put (refused hop .held))) ∧
        (fits → c.service ≠ .held →
          ((s.dev.withoutRun i).runs.firstFree = none ∨ (s.dev.withoutRun i).canListen c.desc = false) →
          exec cmd s = .next (s.put (refused hop .busy))) ∧
        (fits → c.service ≠ .held → (s.dev.withoutRun i).runs.firstFree.isSome = true →
          (s.dev.withoutRun i).canListen c.desc = true →
          ∀ out, c.desc.role = .transit → c.desc.egress = .degree out → (s.dev.links.get out).state ≠ .up →
          exec cmd s = .next (s.put (refused (hop + 1) .linkDown)))

/-- An ANNOUNCE that passes every test opens the lowest free run slot, once the circuit's older run is freed, with the
fields of R112 or R113, attaches the run with the request timer stopped and attempts at 0, claims its listen slots, and
passes ANNOUNCE on with hop k + 1 (transit) or turns ARMED back (tail). Where it superseded an older run the Arbiter
judges at the end of the event (R94 and the model's reading of it, log 22, DEDUCED). -/
def Obligations.AnnounceIsAccepted : Prop :=
  ∀ (s : State) (g : Fin 4) (cid : Nat) (run : RunId) (kind : Kind) (hop n dwell : Nat) (h f : Device) (i : Fin 256)
      (c : Circuit) (slot : Fin 32),
    s.dev.linkTakes g = true → (Message.announce cid run kind hop n dwell).wf = true → h = s.dev.heard g →
    s.dev.findCid cid = some i → s.dev.circuit i = some c → c.fits g hop n dwell = true → c.service ≠ .held →
    f = h.withoutRun i → f.runs.firstFree = some slot → f.canListen c.desc = true →
    ∀ transit : Bool, transit = decide (c.desc.role = .transit) →
      (transit = true → ∃ out, c.desc.egress = .degree out ∧ (s.dev.links.get out).state = .up) →
      ∃ d r, exec (.announce g cid run kind hop n dwell) s =
          .next (s.put (if (s.dev.runOf i).isSome then Device.arbitrate h false d else d)) ∧
        d.runs.get slot = some r ∧ r.id = run ∧ r.circuit = i ∧ r.kind = kind ∧ r.role = c.desc.role ∧ r.k = hop ∧
        r.n = n ∧ r.up = some g ∧ r.down = c.desc.egress.degree? ∧ r.dwell = dwell ∧ r.listen = .opened ∧
        r.own = none ∧ r.hopList = ⟨[], false⟩ ∧ r.phase = (if transit then .arming else .listening) ∧
        r.deadline = s.dev.now + (if transit then 1000 * (s.dev.timings.armBase * (n - 1 - hop))
          else dwell * 100 + 1000 * (2 * s.dev.timings.armBase)) ∧
        d.circuit i = some { c with run := some ⟨run, kind⟩, attempts := 0, requestDeadline := none } ∧
        d.taps = (f.claim slot cid c.desc).taps ∧
        d.links = (if transit then h.sendOpt c.desc.egress.degree? (.announce cid run kind (hop + 1) n dwell)
          else h.send g (.armed cid run)).links ∧
        (∀ j, j ≠ i → d.circuit j = s.dev.circuit j) ∧ d.queue = s.dev.queue ∧ d.clock = s.dev.clock

/-- ARMED on the run's downstream degree takes a transit in ARMING to LISTENING with its STOP wait, passing ARMED up,
and a head in ANNOUNCING to INJECTING with its dwell, its injector DRIVING on the circuit's ADD tap the code frame it
forms from the circuit id, which is the one good frame that carries it; in any other phase it is discarded. -/
def Obligations.ArmedMovesTheRun : Prop :=
  ∀ (s : State) (g : Fin 4) (cid : Nat) (run : RunId) (h : Device) (slot : Fin 32) (r : Run),
    s.dev.linkTakes g = true → (Message.armed cid run).wf = true → h = s.dev.heard g →
    s.dev.findRun cid run = some slot → s.dev.runs.get slot = some r → r.down = some g →
    (r.role = .transit → r.phase = .arming →
      exec (.armed g cid run) s = .next (s.put
        { h.sendOpt r.up (.armed cid run) with runs := s.dev.runs.set slot (some { r with
            phase := .listening
            deadline := s.dev.now + (r.dwell * 100 + 1000 * (2 * s.dev.timings.armBase)) }) })) ∧
    (∀ c tap, r.role = .head → r.phase = .announcing → s.dev.circuit r.circuit = some c → c.desc.ingress = .tap tap →
      exec (.armed g cid run) s = .next (s.put
        { h with
          runs := s.dev.runs.set slot (some { r with phase := .injecting, deadline := s.dev.now + r.dwell * 100 })
          injectors := s.dev.injectors.mapIdx fun _ j =>
            if j = .granted slot then .driving slot tap cid c.desc.channel (codeFrame cid) else j })) ∧
    (∀ frame : BitVec 30, codeFrameGood frame = true ∧ (codeFrameId frame).toNat = cid ↔ frame = codeFrame cid) ∧
    (¬(r.role = .transit ∧ r.phase = .arming) → ¬(r.role = .head ∧ r.phase = .announcing) →
      exec (.armed g cid run) s = .next (s.put h))

/-- STOP on the run's upstream degree closes the listen of a run in LISTENING: its slots are freed, its hop result is
formed, a BASELINE run through the node with no baseline to judge captures a candidate; a transit has passed STOP down
and goes to REPORTING, a tail reports its one result and waits for the OUTCOME. In any other phase it is discarded. The
end of the dwell frees the head's injector, sends STOP down, closes the head's own listen with its hop result and a
candidate where a BASELINE run passed, and enters COLLECTING with the REPORT wait; the hop list holds nothing yet. That
the dwell's end finds the time base at its deadline at least is the model's choice (log 3), and that the Arbiter judges
once, at the end of both events (R94), is its reading (log 22, DEDUCED). -/
def Obligations.ListenClosesAtStopAndAtTheEndOfTheDwell : Prop :=
  (∀ (s : State) (g : Fin 4) (cid : Nat) (run : RunId) (h : Device) (slot : Fin 32) (r : Run) (c : Circuit)
      (own : HopResult),
    s.dev.linkTakes g = true → (Message.stop cid run).wf = true → h = s.dev.heard g →
    s.dev.findRun cid run = some slot → s.dev.runs.get slot = some r → r.up = some g →
    s.dev.circuit r.circuit = some c → own = s.dev.formHop slot r.kind c →
    (r.phase ≠ .listening → exec (.stop g cid run) s = .next (s.put h)) ∧
    (r.phase = .listening → r.role ≠ .head → ∃ d, exec (.stop g cid run) s =
        .next (s.put (Device.arbitrate h false d)) ∧
      d.taps = (s.dev.releaseSlots slot).taps ∧
      (∀ b, b = (if r.kind = .baseline ∧ own.verdict = .throughNoBaseline then
          some ⟨own.inLevel.getD 0, own.outLevel.getD 0, s.dev.clock.time, s.dev.now, run⟩ else c.candidate) →
        d.circuit r.circuit = some { c with candidate := b }) ∧
      (r.role = .transit →
        d.links = (h.sendOpt r.down (.stop cid run)).links ∧
        d.runs.get slot = some { r with
          phase := .reporting, deadline := s.dev.now + 1000 * (s.dev.timings.reportBase * (r.n - 1 - r.k))
          listen := .closed, own := some own }) ∧
      (r.role = .tail →
        d.links = (h.send g (.report cid run false [own])).links ∧
        d.runs.get slot = some { r with
          phase := .awaitingOutcome, deadline := s.dev.now + 1000 * s.dev.timings.outcomeWait
          listen := .closed, own := some own }))) ∧
  ∀ (s : State) (slot : Fin 32) (r : Run) (c : Circuit) (b : Device) (own : HopResult),
    s.dev.rst = false → s.dev.runs.get slot = some r → r.phase = .injecting → s.dev.circuit r.circuit = some c →
    b = { s.dev with now := max s.dev.now r.deadline } → own = s.dev.formHop slot r.kind c →
    ∃ d, exec (.dwell slot) s = .next (s.put (Device.arbitrate b false d)) ∧
      (∀ j, d.injectors.get j = if (s.dev.injectors.get j).run = some slot then .free else s.dev.injectors.get j) ∧
      d.links = (b.sendOpt r.down (.stop c.cid r.id)).links ∧ d.taps = (s.dev.releaseSlots slot).taps ∧
      d.runs.get slot = some { r with
        phase := .collecting, deadline := b.now + 1000 * (s.dev.timings.reportBase * (r.n - 1))
        listen := .closed, own := some own } ∧
      (∀ k, k = (if r.kind = .baseline ∧ own.verdict = .throughNoBaseline then
          some ⟨own.inLevel.getD 0, own.outLevel.getD 0, s.dev.clock.time, b.now, r.id⟩ else c.candidate) →
        d.circuit r.circuit = some { c with candidate := k })

/-- A transit in REPORTING puts its own result before a well-formed REPORT and sends it up with the flag as it arrived,
or, when its REPORT wait expires, sends its own result alone with the flag set; either way it waits for the OUTCOME. A
REPORT that is not well formed for the receiver, or that finds the run in another phase, is discarded. That the wait's
expiry finds the time base at its deadline at least is the model's choice (log 3). -/
def Obligations.TransitReports : Prop :=
  ∀ (s : State) (g : Fin 4) (cid : Nat) (run : RunId) (truncated : Bool) (hops : List HopResult) (h : Device)
      (slot : Fin 32) (r : Run) (own : HopResult),
    s.dev.findRun cid run = some slot → s.dev.runs.get slot = some r → r.own = some own →
    (s.dev.linkTakes g = true → (Message.report cid run truncated hops).wf = true → h = s.dev.heard g →
      r.down = some g →
      ∀ fits, (fits ↔ hops ≠ [] ∧ (∀ m x, hops[m]? = some x → x.hop = r.k + 1 + m) ∧ r.k + hops.length ≤ r.n - 1) →
        r.k < r.n →
        (r.role = .transit → r.phase = .reporting → fits →
          exec (.report g cid run truncated hops) s = .next (s.put
            { h.sendOpt r.up (.report cid run truncated (own :: hops)) with
              runs := s.dev.runs.set slot (some { r with
                phase := .awaitingOutcome, deadline := s.dev.now + 1000 * s.dev.timings.outcomeWait }) })) ∧
        ((¬ fits ∨ ¬((r.role = .transit ∧ r.phase = .reporting) ∨ (r.role = .head ∧ r.phase = .collecting))) →
          exec (.report g cid run truncated hops) s = .next (s.put h))) ∧
    (s.dev.rst = false → r.role = .transit → r.phase = .reporting →
      ∀ d, d = { s.dev with now := max s.dev.now r.deadline } →
        exec (.reportWait slot) s = .next (s.put
          { d.sendOpt r.up (.report cid run true [own]) with
            runs := s.dev.runs.set slot (some { r with
              phase := .awaitingOutcome, deadline := d.now + 1000 * s.dev.timings.outcomeWait }) }))

/-- A head run ends with the finding of its hop list when a well-formed REPORT or the expiry of its REPORT wait reaches
it in COLLECTING, and with INCOMPLETE at hop 1, SILENT, when its ARMED wait expires in ANNOUNCING. A transit whose
ARMED wait expires refuses SILENT at hop k + 1, cancels downstream and frees its run. That an expiry finds the time
base at its deadline at least is the model's choice (log 3), and that the Arbiter judges once, at the end of each event
(R94), is its reading (log 22, DEDUCED). -/
def Obligations.RunsEndOnReportsAndWaits : Prop :=
  ∀ (s : State) (cid : Nat) (run : RunId) (slot : Fin 32) (r : Run) (d : Device),
    s.dev.rst = false → s.dev.findRun cid run = some slot → s.dev.runs.get slot = some r →
    d = { s.dev with now := max s.dev.now r.deadline } →
    (∀ own, r.role = .head → r.phase = .collecting → r.own = some own →
      ∀ done : Device → HopList → Device, (∀ b l, done b l = Device.arbitrate b false
        (Device.endHead { b with runs := s.dev.runs.set slot (some { r with hopList := l }) } slot
          (classify l r.n) false)) →
        (∀ g truncated hops, s.dev.linkTakes g = true → (Message.report cid run truncated hops).wf = true →
          r.down = some g → reportFits r.k r.n hops = true →
          exec (.report g cid run truncated hops) s =
            .next (s.put (done (s.dev.heard g) ⟨own :: hops, truncated⟩))) ∧
        exec (.reportWait slot) s = .next (s.put (done d ⟨[own], true⟩))) ∧
    (r.role = .head → r.phase = .announcing →
      exec (.armedWait slot) s = .next (s.put (Device.arbitrate d false
        (d.endHead slot ⟨.incomplete, some 1, some (.peer .silent)⟩ true)))) ∧
    (r.role = .transit → r.phase = .arming →
      exec (.armedWait slot) s = .next (s.put (Device.arbitrate d false
        (((d.sendOpt r.up (.refuse cid run (r.k + 1) .silent)).sendOpt r.down (.cancel cid run)).dropRun slot))))

/-- A head run that ends with an outcome (VERIFY or BASELINE, any finding): its slot, injector and grant record are
free, its record is settled with the class and verdict of R142 and the outcome as its last one, the run is detached, a
DEFERRED run alone rejoins the queue, and OUTCOME, and CANCEL after it where asked, go downstream. A staged edit is
judged after all of this (R20 and the model's reading of it, log 24, DEDUCED). -/
def Obligations.HeadRunEndsWithAnOutcome : Prop :=
  ∀ (d : Device) (slot : Fin 32) (r : Run) (c : Circuit) (f : Finding) (cancel : Bool) (o : RunOutcome),
    d.runs.get slot = some r → d.circuit r.circuit = some c → r.role = .head → c.desc.role = .head →
    c.run = some ⟨r.id, r.kind⟩ →
    o = { cid := c.cid, run := r.id, kind := r.kind, cls := (verdictOf r.kind c.desc.policy f.cls).1
          verdict := (verdictOf r.kind c.desc.policy f.cls).2, faultHop := f.faultHop, site := f.site } →
    ∃ e : Device, d.endHead slot f cancel = e.judgeStaged r.circuit ∧
      e.runs.get slot = none ∧ (∀ q, q ≠ slot → e.runs.get q = d.runs.get q) ∧
      (∀ j, (e.injectors.get j).run ≠ some slot) ∧ (∀ g ∈ e.grants, g.slot ≠ slot) ∧
      (∃ b, e.circuit r.circuit = some b ∧ b.run = none ∧ b.service = (c.take o.verdict o.cls).service ∧
        b.retained = (c.take o.verdict o.cls).retained ∧ b.staged = c.staged ∧
        b.lastOutcome = some ⟨r.id, r.kind, o.cls, o.verdict, f.faultHop, f.site, d.clock.time⟩ ∧
        (r.hopList.hops ≠ [] → b.hopList = some r.hopList) ∧ (r.hopList.hops = [] → r.own = none → b.hopList = none)) ∧
      (f.cls ≠ .deferred → e.queue = d.queue) ∧
      (∀ g, f.cls = .deferred → d.grantOf slot = some g → g.circuit = r.circuit → g.kind = r.kind →
        d.queued r.circuit r.kind = none →
        e.queue = d.queue ++
          [⟨g.circuit, g.kind, g.cls, g.arrival, g.classTime, some (d.now + 1000 * d.timings.deferDelay)⟩]) ∧
      e.links = (if cancel then (d.sendOpt r.down (.outcome o)).sendOpt r.down (.cancel c.cid r.id)
        else d.sendOpt r.down (.outcome o)).links ∧
      (∀ q, d.ownedBy c.owner q = true → hasAtt (e.ports.get q).attention .outcome)

/-- A REFUSE on the run's downstream degree ends a head run, DEFERRED for HELD and BUSY and INCOMPLETE otherwise, at the
REFUSE's hop with site PEER; a transit passes it up unchanged and, unless it waits for the OUTCOME already, gives up its
listen and does so. The Arbiter judges at the end of the event (R94 and the model's reading of it, log 22, DEDUCED). -/
def Obligations.RefuseEndsOrIsPassedUp : Prop :=
  ∀ (s : State) (g : Fin 4) (cid : Nat) (run : RunId) (hop : Nat) (reason : Reason) (h : Device) (slot : Fin 32)
      (r : Run) (m : Message),
    m = .refuse cid run hop reason → s.dev.linkTakes g = true → m.wf = true → h = s.dev.heard g →
    s.dev.findRun cid run = some slot → s.dev.runs.get slot = some r → r.down = some g →
    (r.role = .head → ∀ cls, cls = (if reason = .held ∨ reason = .busy then RunClass.deferred else .incomplete) →
      exec (.refuse g cid run hop reason) s =
        .next (s.put (Device.arbitrate h false (h.endHead slot ⟨cls, some hop, some (.peer reason)⟩ true)))) ∧
    (r.role = .transit → r.phase = .awaitingOutcome →
      exec (.refuse g cid run hop reason) s = .next (s.put (Device.arbitrate h false (h.sendOpt r.up m)))) ∧
    (r.role = .transit → r.phase ≠ .awaitingOutcome →
      ∃ d, exec (.refuse g cid run hop reason) s = .next (s.put (Device.arbitrate h false d)) ∧
        d.links = (h.sendOpt r.up m).links ∧
        d.runs.get slot = some { r with
          phase := .awaitingOutcome, deadline := s.dev.now + 1000 * s.dev.timings.outcomeWait
          listen := if r.listen = .opened then .none else r.listen } ∧
        d.taps = (if r.listen = .opened then s.dev.releaseSlots slot else s.dev).taps)

/-- An OUTCOME on a run's upstream degree is passed down, settles the record with the verdict and class it carries
where its run is attached, and frees the run, after which a staged edit is judged (log 24, DEDUCED); one that matches
no run, by its ids or by the degree it came on, is passed down by a TRANSIT record where it came on the ingress degree,
and is discarded otherwise. The Arbiter judges at the end of the event (R94 and the model's reading of it, log 22,
DEDUCED). -/
def Obligations.OutcomeIsAppliedAndPassedDown : Prop :=
  ∀ (s : State) (g : Fin 4) (o : RunOutcome) (h : Device),
    s.dev.linkTakes g = true → o.wf = true → h = s.dev.heard g →
    (∀ slot r c, s.dev.findRun o.cid o.run = some slot → s.dev.runs.get slot = some r → r.up = some g →
      s.dev.circuit r.circuit = some c → c.run = some ⟨r.id, r.kind⟩ → c.desc.role ≠ .head → r.role ≠ .head →
      ∃ (d : Device) (b : Circuit), exec (.outcome g o) s = .next (s.put (Device.arbitrate h false (d.judgeStaged r.circuit))) ∧
        d.runs.get slot = none ∧ d.links = (h.sendOpt r.down (.outcome o)).links ∧
        d.circuit r.circuit = some b ∧ b.run = none ∧ b.service = (c.take o.verdict o.cls).service ∧
        b.retained = (c.take o.verdict o.cls).retained ∧ b.hopList = c.hopList ∧ b.staged = c.staged ∧
        b.lastOutcome = some ⟨o.run, o.kind, o.cls, o.verdict, o.faultHop, o.site, s.dev.clock.time⟩ ∧
        (b.service = .due → b.attempts = 1 ∧
          b.requestDeadline = some (s.dev.now + 1000 * s.dev.timings.requestInterval)) ∧
        (o.verdict ≠ .noVerdict → ∀ w y, s.dev.windows.get w = some y →
          (y.state = .verifying ∨ y.state = .overdue) → ∃ z, d.windows.get w = some z ∧ r.circuit ∉ z.unresolved) ∧
        (∀ q, s.dev.ownedBy c.owner q = true → hasAtt (d.ports.get q).attention .outcome)) ∧
    ((∀ slot r, s.dev.findRun o.cid o.run = some slot → s.dev.runs.get slot = some r → r.up ≠ some g) →
      (∀ i c, s.dev.findCid o.cid = some i → s.dev.circuit i = some c →
        (c.desc.role = .transit → c.desc.ingress = .degree g →
          exec (.outcome g o) s = .next (s.put (h.sendOpt c.desc.egress.degree? (.outcome o)))) ∧
        (¬(c.desc.role = .transit ∧ c.desc.ingress = .degree g) →
          exec (.outcome g o) s = .next (s.put h))) ∧
      (s.dev.findCid o.cid = none → exec (.outcome g o) s = .next (s.put h)))

/-- CANCEL, the STOP wait and the OUTCOME wait free a transit or tail run with no verdict: the slot is free, the run
detached, the service state, flag and last outcome as they were, a DUE record's request timer started at attempts 1;
CANCEL goes down for the first two. A staged edit is judged after this (log 24, DEDUCED). A CANCEL that matches no run
is discarded. That a wait's expiry finds the time base at its deadline at least is the model's choice (log 3), and that
the Arbiter judges once, at the end of each event (R94), is its reading (log 22, DEDUCED). -/
def Obligations.RunIsFreedQuietly : Prop :=
  ∀ (s : State) (cid : Nat) (run : RunId) (slot : Fin 32) (r : Run) (c : Circuit),
    s.dev.findRun cid run = some slot → s.dev.runs.get slot = some r → r.role ≠ .head →
    s.dev.circuit r.circuit = some c → c.desc.role ≠ .head →
    ∀ freed : Device → Device → Prop,
      (∀ b d, freed b d ↔ d.runs.get slot = none ∧ (∀ q, q ≠ slot → d.runs.get q = b.runs.get q) ∧
        d.taps = (if r.listen = .opened then b.releaseSlots slot else b).taps ∧
        (c.service = .due → d.circuit r.circuit = some { c with
          run := none, attempts := 1, requestDeadline := some (b.now + 1000 * b.timings.requestInterval) }) ∧
        (c.service ≠ .due → d.circuit r.circuit = some { c with run := none }) ∧
        d.queue = b.queue ∧ d.windows = b.windows ∧ d.clock = b.clock) →
      (∀ g h, s.dev.linkTakes g = true → (Message.cancel cid run).wf = true → h = s.dev.heard g → r.up = some g →
        ∃ d : Device, exec (.cancel g cid run) s = .next (s.put (Device.arbitrate h false (d.judgeStaged r.circuit))) ∧ freed h d ∧
          d.links = (h.sendOpt r.down (.cancel cid run)).links) ∧
      (s.dev.rst = false → ∀ b, b = { s.dev with now := max s.dev.now r.deadline } →
        (r.phase = .listening → ∃ d : Device,
          exec (.stopWait slot) s = .next (s.put (Device.arbitrate b false (d.judgeStaged r.circuit))) ∧ freed b d ∧
          d.links = (b.sendOpt r.down (.cancel cid run)).links) ∧
        (r.phase = .awaitingOutcome → ∃ d : Device,
          exec (.outcomeWait slot) s = .next (s.put (Device.arbitrate b false (d.judgeStaged r.circuit))) ∧ freed b d ∧
          d.links = b.links)) ∧
      ∀ g other, s.dev.linkTakes g = true → (Message.cancel cid other).wf = true → s.dev.findRun cid other = none →
        exec (.cancel g cid other) s = .next (s.put (s.dev.heard g))

/-- A REQUEST on the record's egress degree is passed upstream by a TRANSIT and taken by the queue at a HEAD, HIGH for
VERIFY and NORMAL for BASELINE, in every service state, after which the Arbiter judges (R94 and the model's reading of
it, log 22, DEDUCED); on another degree, at a TAIL, and for a circuit id that no record has, it is discarded. The
request timer of a record sends REQUEST again at attempts 1 and 2, and at 3 faults the record HEAD-SILENT with the flag
cleared, after which a staged edit is judged (log 24, DEDUCED); that its expiry finds the time base at its deadline at
least is the model's choice (log 3). -/
def Obligations.RequestsReachTheHeadOrGoSilent : Prop :=
  (∀ (s : State) (g : Fin 4) (cid : Nat) (kind : Kind), s.dev.linkTakes g = true →
    (Message.request cid kind).wf = true → s.dev.findCid cid = none →
    exec (.request g cid kind) s = .next (s.put (s.dev.heard g))) ∧
  ∀ (s : State) (i : Fin 256) (c : Circuit), s.dev.circuit i = some c →
    (∀ g kind h, s.dev.linkTakes g = true → (Message.request c.cid kind).wf = true → h = s.dev.heard g →
      s.dev.findCid c.cid = some i →
      (c.desc.egress = .degree g → c.desc.role = .transit →
        exec (.request g c.cid kind) s = .next (s.put (h.sendOpt c.desc.ingress.degree? (.request c.cid kind)))) ∧
      (c.desc.egress = .degree g → c.desc.role = .head →
        exec (.request g c.cid kind) s = .next (s.put (Device.arbitrate h false
          (h.enqueue i kind (if kind = .verify then .high else .normal))))) ∧
      ((c.desc.egress ≠ .degree g ∨ c.desc.role = .tail) → exec (.request g c.cid kind) s = .next (s.put h))) ∧
    (s.dev.rst = false → ∀ deadline b, c.requestDeadline = some deadline →
      b = { s.dev with now := max s.dev.now deadline } →
      (c.attempts < 3 →
        exec (.requestTimer i) s = .next (s.put
          { b.sendOpt c.desc.ingress.degree? (.request c.cid .verify) with
            circuits := s.dev.circuits.set i (some { c with
              attempts := c.attempts + 1
              requestDeadline := some (b.now + 1000 * s.dev.timings.requestInterval) }) })) ∧
      (c.attempts = 3 → c.service = .due →
        exec (.requestTimer i) s = .next (s.put
          ((({ b with circuits := s.dev.circuits.set i (some { c with
              attempts := 0, requestDeadline := none, retained := false
              service := .faulted .headSilent }) } : Device).attendCircuit c.owner i).judgeStaged i))))

/-- The hop result formed at the close of a run's listen: the record's hop and the running node id; ingress and egress
as the run's one slot of each purpose shows them; the stray tap the lowest WATCH tap that is SEEN; and the hop verdict
from them in the order of R133's table, a hop judged THROUGH refined in the order of R134's. -/
def Obligations.HopVerdictFollowsTheSightings : Prop :=
  ∀ (d : Device) (slot : Fin 32) (kind : Kind) (c : Circuit) (own : HopResult), own = d.formHop slot kind c →
    own.hop = c.desc.k ∧ own.node = d.nodeId ∧
    (∀ t x a, d.taps.get t = x → x.slotOf slot = some a →
      (∀ u b, u ≠ t → (d.taps.get u).slotOf slot = some b → b.purpose ≠ a.purpose) →
      (a.purpose = .ingress →
        own.inSight = a.sighting ∧ own.inLevel = a.level x.settings.trim ∧ own.inClass = x.lightClass) ∧
      (a.purpose = .expectedEgress → own.outSight = a.sighting ∧ own.outLevel = a.level x.settings.trim)) ∧
    (∀ t : Fin 16, own.stray = some t.val ↔
      (∃ a, (d.taps.get t).slotOf slot = some a ∧ a.purpose = .watch ∧ a.sighting = .seen) ∧
        ∀ u b, u < t → (d.taps.get u).slotOf slot = some b → b.purpose = .watch → b.sighting ≠ .seen) ∧
    ((own.inSight = .garbled ∨ own.inSight = .notSeen) → own.verdict = .inMissing) ∧
    (own.inSight = .seen → own.stray.isSome = true → own.verdict = .misrouted) ∧
    (own.inSight = .seen → own.stray = none → own.outSight = .garbled ∨ own.outSight = .notSeen →
      own.verdict = .outMissing) ∧
    (own.inSight = .seen → own.stray = none → own.outSight = .seen →
      ∃ x y, own.inLevel = some x ∧ own.outLevel = some y ∧
        ((kind = .baseline ∨ c.committed = none) → own.verdict = .throughNoBaseline) ∧
        ∀ b, kind = .verify → c.committed = some b →
          (((c.desc.tolerance : Int) < |x - b.inLevel| ∨ (c.desc.tolerance : Int) < |y - b.outLevel|) →
            own.verdict = .throughDegraded) ∧
          (|x - b.inLevel| ≤ c.desc.tolerance → |y - b.outLevel| ≤ c.desc.tolerance → own.verdict = .throughOk))

/-- The first hop of a list that is not a clean pass-through decides class, fault hop and site; with none, a list
marked truncated and short of its path is INCOMPLETE at the hop after its last, and a complete one DEGRADED at its
first degraded hop or VERIFIED. The class sent and the verdict of a VERIFY run by the table of R142; a BASELINE run
keeps its class, and its verdict is NONE. -/
def Obligations.HeadClassifiesAndGivesTheVerdict : Prop :=
  (∀ (before : List HopResult) (x : HopResult) (after : List HopResult) (truncated : Bool) (n : Nat),
    (∀ y ∈ before, isThrough y.verdict = true) →
    ((x.verdict = .inMissing → classify ⟨before ++ x :: after, truncated⟩ n =
        ⟨.breakage, some x.hop, some (if x.hop = 0 then .add else .span)⟩) ∧
      (x.verdict = .outMissing → classify ⟨before ++ x :: after, truncated⟩ n =
        ⟨.breakage, some x.hop, some .node⟩) ∧
      (∀ t, x.verdict = .misrouted → x.stray = some t → classify ⟨before ++ x :: after, truncated⟩ n =
        ⟨.misroute, some x.hop, some (.stray t)⟩)) ∧
    (before.length < n → classify ⟨before, true⟩ n =
      ⟨.incomplete, some before.length, some (.peer .silent)⟩) ∧
    (before.length = n → (∀ y ∈ before, y.verdict ≠ .throughDegraded) →
      classify ⟨before, false⟩ n = ⟨.verified, none, none⟩) ∧
    ((∀ y ∈ before, y.verdict ≠ .throughDegraded) → x.verdict = .throughDegraded →
      (∀ y ∈ after, isThrough y.verdict = true) → (before ++ x :: after).length = n →
      classify ⟨before ++ x :: after, false⟩ n = ⟨.degraded, some x.hop, none⟩)) ∧
  ∀ (policy : Policy),
    (verdictOf .verify policy .verified = (.verified, .pass) ∧ verdictOf .verify policy .degraded = (.degraded, .pass) ∧
      verdictOf .verify policy .breakage = (.breakage, .fail) ∧ verdictOf .verify policy .misroute = (.misroute, .fail) ∧
      verdictOf .verify policy .deferred = (.deferred, .noVerdict)) ∧
    verdictOf .verify policy .incomplete = (if policy = .accept then (.partialPath, .pass) else (.incomplete, .fail)) ∧
    (∀ cls, verdictOf .baseline policy cls = (cls, .noVerdict)) ∧
    ∀ kind cls, escalates kind policy cls = true ↔ kind = .verify ∧ policy = .escalate ∧ cls = .incomplete

/-! ### Peer links -/

/-- What a HELLO does to its link: a good one (R150: a node id in 1..65534) writes the neighbour seen and moves the
silence deadline (R148); one that agrees takes DOWN to PROBING, counts there and in MISWIRED and at the third takes the
link UP; one that disagrees takes DOWN, PROBING and UP to MISWIRED with a check naming the id accepted, the loss of an
UP link acting on its runs, and in MISWIRED sets the count back. Each change of state raises PLANT. A link in DISABLED
takes none, and one that is not good only moves the silence deadline. -/
def Obligations.HelloMovesTheLink : Prop :=
  ∀ (s : State) (g degree : Fin 4) (node : Nat) (l seen : Link) (accepted : Option Nat) (agrees : Prop)
      (put : Link → Device) (after : Device → Prop),
    s.dev.rst = false → s.dev.links.get g = l → (∀ x, put x = { s.dev with links := s.dev.links.set g x }) →
    (∀ d, after d ↔ exec (.hello g node degree.val) s = .next (s.put d)) →
    seen = { l with
      seenId := some node, seenDegree := some degree
      silence := if l.state = .down then l.silence else some (s.dev.now + 3000) } →
    accepted = (if s.dev.expected g ≠ 0 then some (s.dev.expected g) else if l.state = .down then none else l.seenId) →
    (agrees ↔ node ≠ s.dev.nodeId ∧ (accepted = some node ∨ (s.dev.expected g = 0 ∧ l.state = .down))) →
    (l.state = .disabled → after s.dev) ∧
    (l.state ≠ .disabled → (node = 0 ∨ 65534 < node) →
      after (put { l with silence := if l.state = .down then l.silence else some (s.dev.now + 3000) })) ∧
    (1 ≤ node → node ≤ 65534 →
      (agrees → l.state = .down → after ((put { seen with
        state := .probing, agreeing := 1, silence := some (s.dev.now + 3000) }).raiseLine .plant)) ∧
      (agrees → (l.state = .probing ∨ l.state = .miswired) →
        (l.agreeing < 2 → after (put { seen with agreeing := l.agreeing + 1 })) ∧
        (l.agreeing = 2 → after ((put { seen with agreeing := 3, state := .up }).raiseLine .plant))) ∧
      (agrees → l.state = .up → after (put seen)) ∧
      (¬agrees → l.state = .miswired → after (put { seen with agreeing := 0 })) ∧
      (¬agrees → ∀ d, d = ((put { seen with
          state := .miswired, agreeing := 0, silence := some (s.dev.now + 3000), queue := [] }).raiseLine
          .plant).raiseCheck (.neighbourMismatch g node degree.val (accepted.getD 0)) →
        ((l.state = .down ∨ l.state = .probing) → after d) ∧ (l.state = .up → after (d.linkLost g))))

/-- The silence deadline takes PROBING, UP and MISWIRED to DOWN with PLANT attention, empties the queue and, from UP,
acts on the runs; a HELLO falls due once a second and leaves the queue alone; an UP link sends its oldest frame, which
leaves the queue. A message handed to a link joins the queue of an UP link with room, is discarded with PLANT attention
when the queue holds 16, and is discarded without on any other. That the deadline and the HELLO's instant find the time
base there at least is the model's choice (log 3). -/
def Obligations.LinksSendAndFallSilent : Prop :=
  ∀ (s : State) (g : Fin 4) (l : Link), s.dev.links.get g = l →
    (∀ m, (l.state ≠ .up → s.dev.send g m = s.dev) ∧
      (l.state = .up → l.queue.length < 16 →
        s.dev.send g m = { s.dev with links := s.dev.links.set g { l with queue := l.queue ++ [m] } }) ∧
      (l.state = .up → 16 ≤ l.queue.length → s.dev.send g m = s.dev.raiseLine .plant)) ∧
    (s.dev.rst = false →
      (∀ t d, l.silence = some t → (l.state = .probing ∨ l.state = .up ∨ l.state = .miswired) →
        d = Device.raiseLine { s.dev with
          now := max s.dev.now t
          links := s.dev.links.set g { l with state := .down, agreeing := 0, silence := none, queue := [] } } .plant →
        exec (.silenceDeadline g) s = .next (s.put (if l.state = .up then d.linkLost g else d))) ∧
      (l.state ≠ .disabled →
        exec (.helloPeriod g) s = .next (s.put { s.dev with
          now := max s.dev.now l.helloDue
          links := s.dev.links.set g { l with
            sent := wireBytes (.hello s.dev.nodeId g.val), helloDue := l.helloDue + 1000 } })) ∧
      (l.state = .disabled → exec (.helloPeriod g) s = .next s) ∧
      (∀ m rest, l.state = .up → l.queue = m :: rest →
        exec (.linkTransmit g) s = .next (s.put { s.dev with
          links := s.dev.links.set g { l with queue := rest, sent := wireBytes (.message m) } })) ∧
      ((l.state ≠ .up ∨ l.queue = []) → exec (.linkTransmit g) s = .next s))

/-- The loss of a link acts on a run that uses it: one with the degree upstream sends CANCEL downstream and is freed;
one with it downstream refuses LINK-DOWN at the next hop and is freed (ARMING, LISTENING), reports what it has with the
list marked truncated (REPORTING), waits on (AWAITING-OUTCOME), and at the head ends INCOMPLETE at hop 1. Stated for no
such run and for one, so that the order among several, which is open (log 16), plays no part. The Arbiter judges at the
end of the loss (R94 and the model's reading of it, log 22, DEDUCED). -/
def Obligations.LinkLossActsOnTheRunsThatUseIt : Prop :=
  ∀ (d : Device) (g : Fin 4),
    ((∀ q x, d.runs.get q = some x → x.up ≠ some g ∧ x.down ≠ some g) →
      d.linkLost g = Device.arbitrate d false d) ∧
    ∀ slot r c, d.runs.get slot = some r → d.circuit r.circuit = some c →
      (∀ q x, d.runs.get q = some x → q ≠ slot → x.up ≠ some g ∧ x.down ≠ some g) →
      (r.up = some g → d.linkLost g =
        Device.arbitrate d false ((d.sendOpt r.down (.cancel c.cid r.id)).dropRun slot)) ∧
      (r.up ≠ some g → r.down = some g →
        ((r.phase = .arming ∨ r.phase = .listening) → d.linkLost g = Device.arbitrate d false
          ((d.sendOpt r.up (.refuse c.cid r.id (r.k + 1) .linkDown)).dropRun slot)) ∧
        (∀ own, r.phase = .reporting → r.own = some own → d.linkLost g = Device.arbitrate d false
          { d.sendOpt r.up (.report c.cid r.id true [own]) with
            runs := d.runs.set slot (some { r with
              phase := .awaitingOutcome, deadline := d.now + 1000 * d.timings.outcomeWait }) }) ∧
        (r.phase = .awaitingOutcome → d.linkLost g = Device.arbitrate d false d) ∧
        ((r.phase = .announcing ∨ r.phase = .injecting ∨ r.phase = .collecting) →
          d.linkLost g = Device.arbitrate d false
            (d.endHead slot ⟨.incomplete, some 1, some (.peer .linkDown)⟩ true)))

/-- What the bytes after a start delimiter do: a frame that is not valid does nothing, a valid one that is not well
formed for its type only moves the silence deadline of a link in PROBING, UP or MISWIRED, and a well-formed one is the
HELLO or the message it spells. At a new delimiter the receiver starts again: what stands before it is taken first, and
what stands after it then. FRAME_DISCARDED carries the bytes, and the model judges them itself (its choice, log 8). -/
def Obligations.FramesAreTakenForWhatTheyAre : Prop :=
  (∀ (s t : State) (g : Fin 4) (before rest : List Byte), 0x7E ∉ before →
    exec (.frameDiscarded g before) s = .next t →
    exec (.frameDiscarded g (before ++ 0x7E :: rest)) s = exec (.frameDiscarded g rest) t) ∧
  ∀ (s : State) (g : Fin 4) (bytes : List Byte), s.dev.rst = false → 0x7E ∉ bytes →
    (validFrame bytes = none → exec (.frameDiscarded g bytes) s = .next s) ∧
    ∀ typ body, validFrame bytes = some (typ, body) →
      (parseFrame typ body = none → ∀ l, s.dev.links.get g = l →
        exec (.frameDiscarded g bytes) s = .next (s.put { s.dev with links := s.dev.links.set g { l with
          silence := if l.state = .probing ∨ l.state = .up ∨ l.state = .miswired then some (s.dev.now + 3000)
            else l.silence } })) ∧
      (∀ node degree, parseFrame typ body = some (.hello node degree) →
        exec (.frameDiscarded g bytes) s = exec (.hello g node degree) s) ∧
      ∀ m, parseFrame typ body = some (.message m) → exec (.frameDiscarded g bytes) s = exec (commandOf g m) s

/-- Every well-formed message, and every HELLO with a node id of two bytes, survives the link: the bytes it is framed in
are a valid frame, and the frame spells the message with every field as it was. -/
def Obligations.FramesSurviveTheLink : Prop :=
  (∀ m : Message, m.wf = true →
    ∃ typ body, validFrame ((wireBytes (.message m)).drop 1) = some (typ, body) ∧
      parseFrame typ body = some (.message m)) ∧
  ∀ (node : Nat) (degree : Fin 4), node < 2 ^ 16 →
    ∃ typ body, validFrame ((wireBytes (.hello node degree.val)).drop 1) = some (typ, body) ∧
      parseFrame typ body = some (.hello node degree.val)

/-! ### What every step keeps -/

/-- No step brings two records to one circuit id, or to one channel with the same egress or the same ingress. -/
def Obligations.CircuitsStayApart : Prop :=
  ∀ s t : State, s.dev.circuitsApart → step s = .next t → t.dev.circuitsApart

/-- No step brings two queue entries to one circuit and kind. -/
def Obligations.QueueEntriesStayApart : Prop :=
  ∀ s t : State, s.dev.entriesApart → step s = .next t → t.dev.entriesApart

/-- Every step keeps the links sound: a silence deadline exactly in PROBING, UP and MISWIRED, a queue of at most 16 and
in UP alone, at most 3 agreeing HELLOs, and every link DISABLED while the part is UNCONFIGURED. -/
def Obligations.LinksStaySound : Prop :=
  ∀ s t : State, s.dev.linksSound → step s = .next t → t.dev.linksSound

/-- Every step keeps the clock's fields in their ranges, and a pending tick and a hold limit to a hold. -/
def Obligations.ClockStaysSound : Prop :=
  ∀ s t : State, s.dev.clock.sound → step s = .next t → t.dev.clock.sound

/-- The state after reset has what the four statements above keep. -/
def Obligations.ResetKeepsTheInvariants : Prop :=
  State.reset.dev.circuitsApart ∧ State.reset.dev.entriesApart ∧ State.reset.dev.linksSound ∧
    State.reset.dev.clock.sound
end

