-- ==== Sys2Proof/Laws/State.lean ====
section
/-! SUPPORT. Every field after each plain update: one lemma per field per update, true by definition. -/

namespace Sys2Proof.Machine

@[simp] theorem put_dev (s : State) (d : Device) : (s.put d).dev = d := rfl
@[simp] theorem put_pending (s : State) (d : Device) : (s.put d).pending = s.pending := rfl
@[simp] theorem put_self (s : State) : s.put s.dev = s := rfl
@[simp] theorem put_put (s : State) (d e : Device) : (s.put d).put e = s.put e := rfl
theorem on_eq_put (s : State) (f : Device → Device) : s.on f = .next (s.put (f s.dev)) := rfl

@[simp] theorem onClock_now (d : Device) (f : Clock → Clock) : (d.onClock f).now = d.now := rfl
@[simp] theorem onClock_draws (d : Device) (f : Clock → Clock) : (d.onClock f).draws = d.draws := rfl
@[simp] theorem onClock_rst (d : Device) (f : Clock → Clock) : (d.onClock f).rst = d.rst := rfl
@[simp] theorem onClock_lineIn (d : Device) (f : Clock → Clock) : (d.onClock f).lineIn = d.lineIn := rfl
@[simp] theorem onClock_eeprom (d : Device) (f : Clock → Clock) : (d.onClock f).eeprom = d.eeprom := rfl
@[simp] theorem onClock_running (d : Device) (f : Clock → Clock) : (d.onClock f).running = d.running := rfl
@[simp] theorem onClock_pendingNode (d : Device) (f : Clock → Clock) : (d.onClock f).pendingNode = d.pendingNode := rfl
@[simp] theorem onClock_loading (d : Device) (f : Clock → Clock) : (d.onClock f).loading = d.loading := rfl
@[simp] theorem onClock_storing (d : Device) (f : Clock → Clock) : (d.onClock f).storing = d.storing := rfl
@[simp] theorem onClock_ports (d : Device) (f : Clock → Clock) : (d.onClock f).ports = d.ports := rfl
@[simp] theorem onClock_check (d : Device) (f : Clock → Clock) : (d.onClock f).check = d.check := rfl
@[simp] theorem onClock_clock (d : Device) (f : Clock → Clock) : (d.onClock f).clock = f d.clock := rfl
@[simp] theorem onClock_windows (d : Device) (f : Clock → Clock) : (d.onClock f).windows = d.windows := rfl
@[simp] theorem onClock_circuits (d : Device) (f : Clock → Clock) : (d.onClock f).circuits = d.circuits := rfl
@[simp] theorem onClock_queue (d : Device) (f : Clock → Clock) : (d.onClock f).queue = d.queue := rfl
@[simp] theorem onClock_nextArrival (d : Device) (f : Clock → Clock) : (d.onClock f).nextArrival = d.nextArrival := rfl
@[simp] theorem onClock_grants (d : Device) (f : Clock → Clock) : (d.onClock f).grants = d.grants := rfl
@[simp] theorem onClock_runs (d : Device) (f : Clock → Clock) : (d.onClock f).runs = d.runs := rfl
@[simp] theorem onClock_nextRun (d : Device) (f : Clock → Clock) : (d.onClock f).nextRun = d.nextRun := rfl
@[simp] theorem onClock_taps (d : Device) (f : Clock → Clock) : (d.onClock f).taps = d.taps := rfl
@[simp] theorem onClock_injectors (d : Device) (f : Clock → Clock) : (d.onClock f).injectors = d.injectors := rfl
@[simp] theorem onClock_links (d : Device) (f : Clock → Clock) : (d.onClock f).links = d.links := rfl

@[simp] theorem port_now (d : Device) (p : Fin 4) (f : PortCtx → PortCtx) : (d.port p f).now = d.now := rfl
@[simp] theorem port_draws (d : Device) (p : Fin 4) (f : PortCtx → PortCtx) : (d.port p f).draws = d.draws := rfl
@[simp] theorem port_rst (d : Device) (p : Fin 4) (f : PortCtx → PortCtx) : (d.port p f).rst = d.rst := rfl
@[simp] theorem port_lineIn (d : Device) (p : Fin 4) (f : PortCtx → PortCtx) : (d.port p f).lineIn = d.lineIn := rfl
@[simp] theorem port_eeprom (d : Device) (p : Fin 4) (f : PortCtx → PortCtx) : (d.port p f).eeprom = d.eeprom := rfl
@[simp] theorem port_running (d : Device) (p : Fin 4) (f : PortCtx → PortCtx) : (d.port p f).running = d.running := rfl
@[simp] theorem port_pendingNode (d : Device) (p : Fin 4) (f : PortCtx → PortCtx) :
    (d.port p f).pendingNode = d.pendingNode := rfl
@[simp] theorem port_loading (d : Device) (p : Fin 4) (f : PortCtx → PortCtx) : (d.port p f).loading = d.loading := rfl
@[simp] theorem port_storing (d : Device) (p : Fin 4) (f : PortCtx → PortCtx) : (d.port p f).storing = d.storing := rfl
@[simp] theorem port_ports (d : Device) (p : Fin 4) (f : PortCtx → PortCtx) :
    (d.port p f).ports = d.ports.modify p f := rfl
@[simp] theorem port_check (d : Device) (p : Fin 4) (f : PortCtx → PortCtx) : (d.port p f).check = d.check := rfl
@[simp] theorem port_clock (d : Device) (p : Fin 4) (f : PortCtx → PortCtx) : (d.port p f).clock = d.clock := rfl
@[simp] theorem port_windows (d : Device) (p : Fin 4) (f : PortCtx → PortCtx) : (d.port p f).windows = d.windows := rfl
@[simp] theorem port_circuits (d : Device) (p : Fin 4) (f : PortCtx → PortCtx) :
    (d.port p f).circuits = d.circuits := rfl
@[simp] theorem port_queue (d : Device) (p : Fin 4) (f : PortCtx → PortCtx) : (d.port p f).queue = d.queue := rfl
@[simp] theorem port_nextArrival (d : Device) (p : Fin 4) (f : PortCtx → PortCtx) :
    (d.port p f).nextArrival = d.nextArrival := rfl
@[simp] theorem port_grants (d : Device) (p : Fin 4) (f : PortCtx → PortCtx) : (d.port p f).grants = d.grants := rfl
@[simp] theorem port_runs (d : Device) (p : Fin 4) (f : PortCtx → PortCtx) : (d.port p f).runs = d.runs := rfl
@[simp] theorem port_nextRun (d : Device) (p : Fin 4) (f : PortCtx → PortCtx) : (d.port p f).nextRun = d.nextRun := rfl
@[simp] theorem port_taps (d : Device) (p : Fin 4) (f : PortCtx → PortCtx) : (d.port p f).taps = d.taps := rfl
@[simp] theorem port_injectors (d : Device) (p : Fin 4) (f : PortCtx → PortCtx) :
    (d.port p f).injectors = d.injectors := rfl
@[simp] theorem port_links (d : Device) (p : Fin 4) (f : PortCtx → PortCtx) : (d.port p f).links = d.links := rfl

@[simp] theorem respond_now (d : Device) (p : Fin 4) (code rc : Nat) (body : List Byte) :
    (d.respond p code rc body).now = d.now := rfl
@[simp] theorem respond_draws (d : Device) (p : Fin 4) (code rc : Nat) (body : List Byte) :
    (d.respond p code rc body).draws = d.draws := rfl
@[simp] theorem respond_rst (d : Device) (p : Fin 4) (code rc : Nat) (body : List Byte) :
    (d.respond p code rc body).rst = d.rst := rfl
@[simp] theorem respond_lineIn (d : Device) (p : Fin 4) (code rc : Nat) (body : List Byte) :
    (d.respond p code rc body).lineIn = d.lineIn := rfl
@[simp] theorem respond_eeprom (d : Device) (p : Fin 4) (code rc : Nat) (body : List Byte) :
    (d.respond p code rc body).eeprom = d.eeprom := rfl
@[simp] theorem respond_running (d : Device) (p : Fin 4) (code rc : Nat) (body : List Byte) :
    (d.respond p code rc body).running = d.running := rfl
@[simp] theorem respond_pendingNode (d : Device) (p : Fin 4) (code rc : Nat) (body : List Byte) :
    (d.respond p code rc body).pendingNode = d.pendingNode := rfl
@[simp] theorem respond_loading (d : Device) (p : Fin 4) (code rc : Nat) (body : List Byte) :
    (d.respond p code rc body).loading = d.loading := rfl
@[simp] theorem respond_storing (d : Device) (p : Fin 4) (code rc : Nat) (body : List Byte) :
    (d.respond p code rc body).storing = d.storing := rfl
@[simp] theorem respond_ports (d : Device) (p : Fin 4) (code rc : Nat) (body : List Byte) :
    (d.respond p code rc body).ports = d.ports.modify p fun x => { x with response := some (responseFrame code rc body) } := rfl
@[simp] theorem respond_check (d : Device) (p : Fin 4) (code rc : Nat) (body : List Byte) :
    (d.respond p code rc body).check = d.check := rfl
@[simp] theorem respond_clock (d : Device) (p : Fin 4) (code rc : Nat) (body : List Byte) :
    (d.respond p code rc body).clock = d.clock := rfl
@[simp] theorem respond_windows (d : Device) (p : Fin 4) (code rc : Nat) (body : List Byte) :
    (d.respond p code rc body).windows = d.windows := rfl
@[simp] theorem respond_circuits (d : Device) (p : Fin 4) (code rc : Nat) (body : List Byte) :
    (d.respond p code rc body).circuits = d.circuits := rfl
@[simp] theorem respond_queue (d : Device) (p : Fin 4) (code rc : Nat) (body : List Byte) :
    (d.respond p code rc body).queue = d.queue := rfl
@[simp] theorem respond_nextArrival (d : Device) (p : Fin 4) (code rc : Nat) (body : List Byte) :
    (d.respond p code rc body).nextArrival = d.nextArrival := rfl
@[simp] theorem respond_grants (d : Device) (p : Fin 4) (code rc : Nat) (body : List Byte) :
    (d.respond p code rc body).grants = d.grants := rfl
@[simp] theorem respond_runs (d : Device) (p : Fin 4) (code rc : Nat) (body : List Byte) :
    (d.respond p code rc body).runs = d.runs := rfl
@[simp] theorem respond_nextRun (d : Device) (p : Fin 4) (code rc : Nat) (body : List Byte) :
    (d.respond p code rc body).nextRun = d.nextRun := rfl
@[simp] theorem respond_taps (d : Device) (p : Fin 4) (code rc : Nat) (body : List Byte) :
    (d.respond p code rc body).taps = d.taps := rfl
@[simp] theorem respond_injectors (d : Device) (p : Fin 4) (code rc : Nat) (body : List Byte) :
    (d.respond p code rc body).injectors = d.injectors := rfl
@[simp] theorem respond_links (d : Device) (p : Fin 4) (code rc : Nat) (body : List Byte) :
    (d.respond p code rc body).links = d.links := rfl

@[simp] theorem link_now (d : Device) (g : Fin 4) (f : Link → Link) : (d.link g f).now = d.now := rfl
@[simp] theorem link_draws (d : Device) (g : Fin 4) (f : Link → Link) : (d.link g f).draws = d.draws := rfl
@[simp] theorem link_rst (d : Device) (g : Fin 4) (f : Link → Link) : (d.link g f).rst = d.rst := rfl
@[simp] theorem link_lineIn (d : Device) (g : Fin 4) (f : Link → Link) : (d.link g f).lineIn = d.lineIn := rfl
@[simp] theorem link_eeprom (d : Device) (g : Fin 4) (f : Link → Link) : (d.link g f).eeprom = d.eeprom := rfl
@[simp] theorem link_running (d : Device) (g : Fin 4) (f : Link → Link) : (d.link g f).running = d.running := rfl
@[simp] theorem link_pendingNode (d : Device) (g : Fin 4) (f : Link → Link) :
    (d.link g f).pendingNode = d.pendingNode := rfl
@[simp] theorem link_loading (d : Device) (g : Fin 4) (f : Link → Link) : (d.link g f).loading = d.loading := rfl
@[simp] theorem link_storing (d : Device) (g : Fin 4) (f : Link → Link) : (d.link g f).storing = d.storing := rfl
@[simp] theorem link_ports (d : Device) (g : Fin 4) (f : Link → Link) : (d.link g f).ports = d.ports := rfl
@[simp] theorem link_check (d : Device) (g : Fin 4) (f : Link → Link) : (d.link g f).check = d.check := rfl
@[simp] theorem link_clock (d : Device) (g : Fin 4) (f : Link → Link) : (d.link g f).clock = d.clock := rfl
@[simp] theorem link_windows (d : Device) (g : Fin 4) (f : Link → Link) : (d.link g f).windows = d.windows := rfl
@[simp] theorem link_circuits (d : Device) (g : Fin 4) (f : Link → Link) : (d.link g f).circuits = d.circuits := rfl
@[simp] theorem link_queue (d : Device) (g : Fin 4) (f : Link → Link) : (d.link g f).queue = d.queue := rfl
@[simp] theorem link_nextArrival (d : Device) (g : Fin 4) (f : Link → Link) :
    (d.link g f).nextArrival = d.nextArrival := rfl
@[simp] theorem link_grants (d : Device) (g : Fin 4) (f : Link → Link) : (d.link g f).grants = d.grants := rfl
@[simp] theorem link_runs (d : Device) (g : Fin 4) (f : Link → Link) : (d.link g f).runs = d.runs := rfl
@[simp] theorem link_nextRun (d : Device) (g : Fin 4) (f : Link → Link) : (d.link g f).nextRun = d.nextRun := rfl
@[simp] theorem link_taps (d : Device) (g : Fin 4) (f : Link → Link) : (d.link g f).taps = d.taps := rfl
@[simp] theorem link_injectors (d : Device) (g : Fin 4) (f : Link → Link) : (d.link g f).injectors = d.injectors := rfl
@[simp] theorem link_links (d : Device) (g : Fin 4) (f : Link → Link) : (d.link g f).links = d.links.modify g f := rfl

@[simp] theorem onCircuit_now (d : Device) (i : Fin 256) (f : Circuit → Circuit) : (d.onCircuit i f).now = d.now := rfl
@[simp] theorem onCircuit_draws (d : Device) (i : Fin 256) (f : Circuit → Circuit) :
    (d.onCircuit i f).draws = d.draws := rfl
@[simp] theorem onCircuit_rst (d : Device) (i : Fin 256) (f : Circuit → Circuit) : (d.onCircuit i f).rst = d.rst := rfl
@[simp] theorem onCircuit_lineIn (d : Device) (i : Fin 256) (f : Circuit → Circuit) :
    (d.onCircuit i f).lineIn = d.lineIn := rfl
@[simp] theorem onCircuit_eeprom (d : Device) (i : Fin 256) (f : Circuit → Circuit) :
    (d.onCircuit i f).eeprom = d.eeprom := rfl
@[simp] theorem onCircuit_running (d : Device) (i : Fin 256) (f : Circuit → Circuit) :
    (d.onCircuit i f).running = d.running := rfl
@[simp] theorem onCircuit_pendingNode (d : Device) (i : Fin 256) (f : Circuit → Circuit) :
    (d.onCircuit i f).pendingNode = d.pendingNode := rfl
@[simp] theorem onCircuit_loading (d : Device) (i : Fin 256) (f : Circuit → Circuit) :
    (d.onCircuit i f).loading = d.loading := rfl
@[simp] theorem onCircuit_storing (d : Device) (i : Fin 256) (f : Circuit → Circuit) :
    (d.onCircuit i f).storing = d.storing := rfl
@[simp] theorem onCircuit_ports (d : Device) (i : Fin 256) (f : Circuit → Circuit) :
    (d.onCircuit i f).ports = d.ports := rfl
@[simp] theorem onCircuit_check (d : Device) (i : Fin 256) (f : Circuit → Circuit) :
    (d.onCircuit i f).check = d.check := rfl
@[simp] theorem onCircuit_clock (d : Device) (i : Fin 256) (f : Circuit → Circuit) :
    (d.onCircuit i f).clock = d.clock := rfl
@[simp] theorem onCircuit_windows (d : Device) (i : Fin 256) (f : Circuit → Circuit) :
    (d.onCircuit i f).windows = d.windows := rfl
@[simp] theorem onCircuit_circuits (d : Device) (i : Fin 256) (f : Circuit → Circuit) :
    (d.onCircuit i f).circuits = d.circuits.modify i (·.map f) := rfl
@[simp] theorem onCircuit_queue (d : Device) (i : Fin 256) (f : Circuit → Circuit) :
    (d.onCircuit i f).queue = d.queue := rfl
@[simp] theorem onCircuit_nextArrival (d : Device) (i : Fin 256) (f : Circuit → Circuit) :
    (d.onCircuit i f).nextArrival = d.nextArrival := rfl
@[simp] theorem onCircuit_grants (d : Device) (i : Fin 256) (f : Circuit → Circuit) :
    (d.onCircuit i f).grants = d.grants := rfl
@[simp] theorem onCircuit_runs (d : Device) (i : Fin 256) (f : Circuit → Circuit) :
    (d.onCircuit i f).runs = d.runs := rfl
@[simp] theorem onCircuit_nextRun (d : Device) (i : Fin 256) (f : Circuit → Circuit) :
    (d.onCircuit i f).nextRun = d.nextRun := rfl
@[simp] theorem onCircuit_taps (d : Device) (i : Fin 256) (f : Circuit → Circuit) :
    (d.onCircuit i f).taps = d.taps := rfl
@[simp] theorem onCircuit_injectors (d : Device) (i : Fin 256) (f : Circuit → Circuit) :
    (d.onCircuit i f).injectors = d.injectors := rfl
@[simp] theorem onCircuit_links (d : Device) (i : Fin 256) (f : Circuit → Circuit) :
    (d.onCircuit i f).links = d.links := rfl

@[simp] theorem onRun_now (d : Device) (r : Fin 32) (f : Run → Run) : (d.onRun r f).now = d.now := rfl
@[simp] theorem onRun_draws (d : Device) (r : Fin 32) (f : Run → Run) : (d.onRun r f).draws = d.draws := rfl
@[simp] theorem onRun_rst (d : Device) (r : Fin 32) (f : Run → Run) : (d.onRun r f).rst = d.rst := rfl
@[simp] theorem onRun_lineIn (d : Device) (r : Fin 32) (f : Run → Run) : (d.onRun r f).lineIn = d.lineIn := rfl
@[simp] theorem onRun_eeprom (d : Device) (r : Fin 32) (f : Run → Run) : (d.onRun r f).eeprom = d.eeprom := rfl
@[simp] theorem onRun_running (d : Device) (r : Fin 32) (f : Run → Run) : (d.onRun r f).running = d.running := rfl
@[simp] theorem onRun_pendingNode (d : Device) (r : Fin 32) (f : Run → Run) :
    (d.onRun r f).pendingNode = d.pendingNode := rfl
@[simp] theorem onRun_loading (d : Device) (r : Fin 32) (f : Run → Run) : (d.onRun r f).loading = d.loading := rfl
@[simp] theorem onRun_storing (d : Device) (r : Fin 32) (f : Run → Run) : (d.onRun r f).storing = d.storing := rfl
@[simp] theorem onRun_ports (d : Device) (r : Fin 32) (f : Run → Run) : (d.onRun r f).ports = d.ports := rfl
@[simp] theorem onRun_check (d : Device) (r : Fin 32) (f : Run → Run) : (d.onRun r f).check = d.check := rfl
@[simp] theorem onRun_clock (d : Device) (r : Fin 32) (f : Run → Run) : (d.onRun r f).clock = d.clock := rfl
@[simp] theorem onRun_windows (d : Device) (r : Fin 32) (f : Run → Run) : (d.onRun r f).windows = d.windows := rfl
@[simp] theorem onRun_circuits (d : Device) (r : Fin 32) (f : Run → Run) : (d.onRun r f).circuits = d.circuits := rfl
@[simp] theorem onRun_queue (d : Device) (r : Fin 32) (f : Run → Run) : (d.onRun r f).queue = d.queue := rfl
@[simp] theorem onRun_nextArrival (d : Device) (r : Fin 32) (f : Run → Run) :
    (d.onRun r f).nextArrival = d.nextArrival := rfl
@[simp] theorem onRun_grants (d : Device) (r : Fin 32) (f : Run → Run) : (d.onRun r f).grants = d.grants := rfl
@[simp] theorem onRun_runs (d : Device) (r : Fin 32) (f : Run → Run) :
    (d.onRun r f).runs = d.runs.modify r (·.map f) := rfl
@[simp] theorem onRun_nextRun (d : Device) (r : Fin 32) (f : Run → Run) : (d.onRun r f).nextRun = d.nextRun := rfl
@[simp] theorem onRun_taps (d : Device) (r : Fin 32) (f : Run → Run) : (d.onRun r f).taps = d.taps := rfl
@[simp] theorem onRun_injectors (d : Device) (r : Fin 32) (f : Run → Run) : (d.onRun r f).injectors = d.injectors := rfl
@[simp] theorem onRun_links (d : Device) (r : Fin 32) (f : Run → Run) : (d.onRun r f).links = d.links := rfl

@[simp] theorem putWindow_now (d : Device) (w : Fin 16) (x : Option Window) : (d.putWindow w x).now = d.now := rfl
@[simp] theorem putWindow_draws (d : Device) (w : Fin 16) (x : Option Window) : (d.putWindow w x).draws = d.draws := rfl
@[simp] theorem putWindow_rst (d : Device) (w : Fin 16) (x : Option Window) : (d.putWindow w x).rst = d.rst := rfl
@[simp] theorem putWindow_lineIn (d : Device) (w : Fin 16) (x : Option Window) :
    (d.putWindow w x).lineIn = d.lineIn := rfl
@[simp] theorem putWindow_eeprom (d : Device) (w : Fin 16) (x : Option Window) :
    (d.putWindow w x).eeprom = d.eeprom := rfl
@[simp] theorem putWindow_running (d : Device) (w : Fin 16) (x : Option Window) :
    (d.putWindow w x).running = d.running := rfl
@[simp] theorem putWindow_pendingNode (d : Device) (w : Fin 16) (x : Option Window) :
    (d.putWindow w x).pendingNode = d.pendingNode := rfl
@[simp] theorem putWindow_loading (d : Device) (w : Fin 16) (x : Option Window) :
    (d.putWindow w x).loading = d.loading := rfl
@[simp] theorem putWindow_storing (d : Device) (w : Fin 16) (x : Option Window) :
    (d.putWindow w x).storing = d.storing := rfl
@[simp] theorem putWindow_ports (d : Device) (w : Fin 16) (x : Option Window) : (d.putWindow w x).ports = d.ports := rfl
@[simp] theorem putWindow_check (d : Device) (w : Fin 16) (x : Option Window) : (d.putWindow w x).check = d.check := rfl
@[simp] theorem putWindow_clock (d : Device) (w : Fin 16) (x : Option Window) : (d.putWindow w x).clock = d.clock := rfl
@[simp] theorem putWindow_windows (d : Device) (w : Fin 16) (x : Option Window) :
    (d.putWindow w x).windows = d.windows.set w x := rfl
@[simp] theorem putWindow_circuits (d : Device) (w : Fin 16) (x : Option Window) :
    (d.putWindow w x).circuits = d.circuits := rfl
@[simp] theorem putWindow_queue (d : Device) (w : Fin 16) (x : Option Window) : (d.putWindow w x).queue = d.queue := rfl
@[simp] theorem putWindow_nextArrival (d : Device) (w : Fin 16) (x : Option Window) :
    (d.putWindow w x).nextArrival = d.nextArrival := rfl
@[simp] theorem putWindow_grants (d : Device) (w : Fin 16) (x : Option Window) :
    (d.putWindow w x).grants = d.grants := rfl
@[simp] theorem putWindow_runs (d : Device) (w : Fin 16) (x : Option Window) : (d.putWindow w x).runs = d.runs := rfl
@[simp] theorem putWindow_nextRun (d : Device) (w : Fin 16) (x : Option Window) :
    (d.putWindow w x).nextRun = d.nextRun := rfl
@[simp] theorem putWindow_taps (d : Device) (w : Fin 16) (x : Option Window) : (d.putWindow w x).taps = d.taps := rfl
@[simp] theorem putWindow_injectors (d : Device) (w : Fin 16) (x : Option Window) :
    (d.putWindow w x).injectors = d.injectors := rfl
@[simp] theorem putWindow_links (d : Device) (w : Fin 16) (x : Option Window) : (d.putWindow w x).links = d.links := rfl

@[simp] theorem reach_now (d : Device) (t : Nat) : (d.reach t).now = max d.now t := rfl
@[simp] theorem reach_draws (d : Device) (t : Nat) : (d.reach t).draws = d.draws := rfl
@[simp] theorem reach_rst (d : Device) (t : Nat) : (d.reach t).rst = d.rst := rfl
@[simp] theorem reach_lineIn (d : Device) (t : Nat) : (d.reach t).lineIn = d.lineIn := rfl
@[simp] theorem reach_eeprom (d : Device) (t : Nat) : (d.reach t).eeprom = d.eeprom := rfl
@[simp] theorem reach_running (d : Device) (t : Nat) : (d.reach t).running = d.running := rfl
@[simp] theorem reach_pendingNode (d : Device) (t : Nat) : (d.reach t).pendingNode = d.pendingNode := rfl
@[simp] theorem reach_loading (d : Device) (t : Nat) : (d.reach t).loading = d.loading := rfl
@[simp] theorem reach_storing (d : Device) (t : Nat) : (d.reach t).storing = d.storing := rfl
@[simp] theorem reach_ports (d : Device) (t : Nat) : (d.reach t).ports = d.ports := rfl
@[simp] theorem reach_check (d : Device) (t : Nat) : (d.reach t).check = d.check := rfl
@[simp] theorem reach_clock (d : Device) (t : Nat) : (d.reach t).clock = d.clock := rfl
@[simp] theorem reach_windows (d : Device) (t : Nat) : (d.reach t).windows = d.windows := rfl
@[simp] theorem reach_circuits (d : Device) (t : Nat) : (d.reach t).circuits = d.circuits := rfl
@[simp] theorem reach_queue (d : Device) (t : Nat) : (d.reach t).queue = d.queue := rfl
@[simp] theorem reach_nextArrival (d : Device) (t : Nat) : (d.reach t).nextArrival = d.nextArrival := rfl
@[simp] theorem reach_grants (d : Device) (t : Nat) : (d.reach t).grants = d.grants := rfl
@[simp] theorem reach_runs (d : Device) (t : Nat) : (d.reach t).runs = d.runs := rfl
@[simp] theorem reach_nextRun (d : Device) (t : Nat) : (d.reach t).nextRun = d.nextRun := rfl
@[simp] theorem reach_taps (d : Device) (t : Nat) : (d.reach t).taps = d.taps := rfl
@[simp] theorem reach_injectors (d : Device) (t : Nat) : (d.reach t).injectors = d.injectors := rfl
@[simp] theorem reach_links (d : Device) (t : Nat) : (d.reach t).links = d.links := rfl

@[simp] theorem raiseWhere_now (d : Device) (sel : Fin 4 → Bool) (c : AttClass) :
    (d.raiseWhere sel c).now = d.now := rfl
@[simp] theorem raiseWhere_draws (d : Device) (sel : Fin 4 → Bool) (c : AttClass) :
    (d.raiseWhere sel c).draws = d.draws := rfl
@[simp] theorem raiseWhere_rst (d : Device) (sel : Fin 4 → Bool) (c : AttClass) :
    (d.raiseWhere sel c).rst = d.rst := rfl
@[simp] theorem raiseWhere_lineIn (d : Device) (sel : Fin 4 → Bool) (c : AttClass) :
    (d.raiseWhere sel c).lineIn = d.lineIn := rfl
@[simp] theorem raiseWhere_eeprom (d : Device) (sel : Fin 4 → Bool) (c : AttClass) :
    (d.raiseWhere sel c).eeprom = d.eeprom := rfl
@[simp] theorem raiseWhere_running (d : Device) (sel : Fin 4 → Bool) (c : AttClass) :
    (d.raiseWhere sel c).running = d.running := rfl
@[simp] theorem raiseWhere_pendingNode (d : Device) (sel : Fin 4 → Bool) (c : AttClass) :
    (d.raiseWhere sel c).pendingNode = d.pendingNode := rfl
@[simp] theorem raiseWhere_loading (d : Device) (sel : Fin 4 → Bool) (c : AttClass) :
    (d.raiseWhere sel c).loading = d.loading := rfl
@[simp] theorem raiseWhere_storing (d : Device) (sel : Fin 4 → Bool) (c : AttClass) :
    (d.raiseWhere sel c).storing = d.storing := rfl
@[simp] theorem raiseWhere_check (d : Device) (sel : Fin 4 → Bool) (c : AttClass) :
    (d.raiseWhere sel c).check = d.check := rfl
@[simp] theorem raiseWhere_clock (d : Device) (sel : Fin 4 → Bool) (c : AttClass) :
    (d.raiseWhere sel c).clock = d.clock := rfl
@[simp] theorem raiseWhere_windows (d : Device) (sel : Fin 4 → Bool) (c : AttClass) :
    (d.raiseWhere sel c).windows = d.windows := rfl
@[simp] theorem raiseWhere_circuits (d : Device) (sel : Fin 4 → Bool) (c : AttClass) :
    (d.raiseWhere sel c).circuits = d.circuits := rfl
@[simp] theorem raiseWhere_queue (d : Device) (sel : Fin 4 → Bool) (c : AttClass) :
    (d.raiseWhere sel c).queue = d.queue := rfl
@[simp] theorem raiseWhere_nextArrival (d : Device) (sel : Fin 4 → Bool) (c : AttClass) :
    (d.raiseWhere sel c).nextArrival = d.nextArrival := rfl
@[simp] theorem raiseWhere_grants (d : Device) (sel : Fin 4 → Bool) (c : AttClass) :
    (d.raiseWhere sel c).grants = d.grants := rfl
@[simp] theorem raiseWhere_runs (d : Device) (sel : Fin 4 → Bool) (c : AttClass) :
    (d.raiseWhere sel c).runs = d.runs := rfl
@[simp] theorem raiseWhere_nextRun (d : Device) (sel : Fin 4 → Bool) (c : AttClass) :
    (d.raiseWhere sel c).nextRun = d.nextRun := rfl
@[simp] theorem raiseWhere_taps (d : Device) (sel : Fin 4 → Bool) (c : AttClass) :
    (d.raiseWhere sel c).taps = d.taps := rfl
@[simp] theorem raiseWhere_injectors (d : Device) (sel : Fin 4 → Bool) (c : AttClass) :
    (d.raiseWhere sel c).injectors = d.injectors := rfl
@[simp] theorem raiseWhere_links (d : Device) (sel : Fin 4 → Bool) (c : AttClass) :
    (d.raiseWhere sel c).links = d.links := rfl

@[simp] theorem raiseLine_now (d : Device) (c : AttClass) : (d.raiseLine c).now = d.now := rfl
@[simp] theorem raiseLine_draws (d : Device) (c : AttClass) : (d.raiseLine c).draws = d.draws := rfl
@[simp] theorem raiseLine_rst (d : Device) (c : AttClass) : (d.raiseLine c).rst = d.rst := rfl
@[simp] theorem raiseLine_lineIn (d : Device) (c : AttClass) : (d.raiseLine c).lineIn = d.lineIn := rfl
@[simp] theorem raiseLine_eeprom (d : Device) (c : AttClass) : (d.raiseLine c).eeprom = d.eeprom := rfl
@[simp] theorem raiseLine_running (d : Device) (c : AttClass) : (d.raiseLine c).running = d.running := rfl
@[simp] theorem raiseLine_pendingNode (d : Device) (c : AttClass) : (d.raiseLine c).pendingNode = d.pendingNode := rfl
@[simp] theorem raiseLine_loading (d : Device) (c : AttClass) : (d.raiseLine c).loading = d.loading := rfl
@[simp] theorem raiseLine_storing (d : Device) (c : AttClass) : (d.raiseLine c).storing = d.storing := rfl
@[simp] theorem raiseLine_ports (d : Device) (c : AttClass) :
    (d.raiseLine c).ports = (d.raiseWhere d.isLine c).ports := rfl
@[simp] theorem raiseLine_check (d : Device) (c : AttClass) : (d.raiseLine c).check = d.check := rfl
@[simp] theorem raiseLine_clock (d : Device) (c : AttClass) : (d.raiseLine c).clock = d.clock := rfl
@[simp] theorem raiseLine_windows (d : Device) (c : AttClass) : (d.raiseLine c).windows = d.windows := rfl
@[simp] theorem raiseLine_circuits (d : Device) (c : AttClass) : (d.raiseLine c).circuits = d.circuits := rfl
@[simp] theorem raiseLine_queue (d : Device) (c : AttClass) : (d.raiseLine c).queue = d.queue := rfl
@[simp] theorem raiseLine_nextArrival (d : Device) (c : AttClass) : (d.raiseLine c).nextArrival = d.nextArrival := rfl
@[simp] theorem raiseLine_grants (d : Device) (c : AttClass) : (d.raiseLine c).grants = d.grants := rfl
@[simp] theorem raiseLine_runs (d : Device) (c : AttClass) : (d.raiseLine c).runs = d.runs := rfl
@[simp] theorem raiseLine_nextRun (d : Device) (c : AttClass) : (d.raiseLine c).nextRun = d.nextRun := rfl
@[simp] theorem raiseLine_taps (d : Device) (c : AttClass) : (d.raiseLine c).taps = d.taps := rfl
@[simp] theorem raiseLine_injectors (d : Device) (c : AttClass) : (d.raiseLine c).injectors = d.injectors := rfl
@[simp] theorem raiseLine_links (d : Device) (c : AttClass) : (d.raiseLine c).links = d.links := rfl

@[simp] theorem raiseOwner_now (d : Device) (o : Owner) (c : AttClass) : (d.raiseOwner o c).now = d.now := rfl
@[simp] theorem raiseOwner_draws (d : Device) (o : Owner) (c : AttClass) : (d.raiseOwner o c).draws = d.draws := rfl
@[simp] theorem raiseOwner_rst (d : Device) (o : Owner) (c : AttClass) : (d.raiseOwner o c).rst = d.rst := rfl
@[simp] theorem raiseOwner_lineIn (d : Device) (o : Owner) (c : AttClass) : (d.raiseOwner o c).lineIn = d.lineIn := rfl
@[simp] theorem raiseOwner_eeprom (d : Device) (o : Owner) (c : AttClass) : (d.raiseOwner o c).eeprom = d.eeprom := rfl
@[simp] theorem raiseOwner_running (d : Device) (o : Owner) (c : AttClass) :
    (d.raiseOwner o c).running = d.running := rfl
@[simp] theorem raiseOwner_pendingNode (d : Device) (o : Owner) (c : AttClass) :
    (d.raiseOwner o c).pendingNode = d.pendingNode := rfl
@[simp] theorem raiseOwner_loading (d : Device) (o : Owner) (c : AttClass) :
    (d.raiseOwner o c).loading = d.loading := rfl
@[simp] theorem raiseOwner_storing (d : Device) (o : Owner) (c : AttClass) :
    (d.raiseOwner o c).storing = d.storing := rfl
@[simp] theorem raiseOwner_ports (d : Device) (o : Owner) (c : AttClass) :
    (d.raiseOwner o c).ports = (d.raiseWhere (d.ownedBy o) c).ports := rfl
@[simp] theorem raiseOwner_check (d : Device) (o : Owner) (c : AttClass) : (d.raiseOwner o c).check = d.check := rfl
@[simp] theorem raiseOwner_clock (d : Device) (o : Owner) (c : AttClass) : (d.raiseOwner o c).clock = d.clock := rfl
@[simp] theorem raiseOwner_windows (d : Device) (o : Owner) (c : AttClass) :
    (d.raiseOwner o c).windows = d.windows := rfl
@[simp] theorem raiseOwner_circuits (d : Device) (o : Owner) (c : AttClass) :
    (d.raiseOwner o c).circuits = d.circuits := rfl
@[simp] theorem raiseOwner_queue (d : Device) (o : Owner) (c : AttClass) : (d.raiseOwner o c).queue = d.queue := rfl
@[simp] theorem raiseOwner_nextArrival (d : Device) (o : Owner) (c : AttClass) :
    (d.raiseOwner o c).nextArrival = d.nextArrival := rfl
@[simp] theorem raiseOwner_grants (d : Device) (o : Owner) (c : AttClass) : (d.raiseOwner o c).grants = d.grants := rfl
@[simp] theorem raiseOwner_runs (d : Device) (o : Owner) (c : AttClass) : (d.raiseOwner o c).runs = d.runs := rfl
@[simp] theorem raiseOwner_nextRun (d : Device) (o : Owner) (c : AttClass) :
    (d.raiseOwner o c).nextRun = d.nextRun := rfl
@[simp] theorem raiseOwner_taps (d : Device) (o : Owner) (c : AttClass) : (d.raiseOwner o c).taps = d.taps := rfl
@[simp] theorem raiseOwner_injectors (d : Device) (o : Owner) (c : AttClass) :
    (d.raiseOwner o c).injectors = d.injectors := rfl
@[simp] theorem raiseOwner_links (d : Device) (o : Owner) (c : AttClass) : (d.raiseOwner o c).links = d.links := rfl

@[simp] theorem noteChanged_now (d : Device) (o : Owner) (i : Fin 256) : (d.noteChanged o i).now = d.now := rfl
@[simp] theorem noteChanged_draws (d : Device) (o : Owner) (i : Fin 256) : (d.noteChanged o i).draws = d.draws := rfl
@[simp] theorem noteChanged_rst (d : Device) (o : Owner) (i : Fin 256) : (d.noteChanged o i).rst = d.rst := rfl
@[simp] theorem noteChanged_lineIn (d : Device) (o : Owner) (i : Fin 256) : (d.noteChanged o i).lineIn = d.lineIn := rfl
@[simp] theorem noteChanged_eeprom (d : Device) (o : Owner) (i : Fin 256) : (d.noteChanged o i).eeprom = d.eeprom := rfl
@[simp] theorem noteChanged_running (d : Device) (o : Owner) (i : Fin 256) :
    (d.noteChanged o i).running = d.running := rfl
@[simp] theorem noteChanged_pendingNode (d : Device) (o : Owner) (i : Fin 256) :
    (d.noteChanged o i).pendingNode = d.pendingNode := rfl
@[simp] theorem noteChanged_loading (d : Device) (o : Owner) (i : Fin 256) :
    (d.noteChanged o i).loading = d.loading := rfl
@[simp] theorem noteChanged_storing (d : Device) (o : Owner) (i : Fin 256) :
    (d.noteChanged o i).storing = d.storing := rfl
@[simp] theorem noteChanged_check (d : Device) (o : Owner) (i : Fin 256) : (d.noteChanged o i).check = d.check := rfl
@[simp] theorem noteChanged_clock (d : Device) (o : Owner) (i : Fin 256) : (d.noteChanged o i).clock = d.clock := rfl
@[simp] theorem noteChanged_windows (d : Device) (o : Owner) (i : Fin 256) :
    (d.noteChanged o i).windows = d.windows := rfl
@[simp] theorem noteChanged_circuits (d : Device) (o : Owner) (i : Fin 256) :
    (d.noteChanged o i).circuits = d.circuits := rfl
@[simp] theorem noteChanged_queue (d : Device) (o : Owner) (i : Fin 256) : (d.noteChanged o i).queue = d.queue := rfl
@[simp] theorem noteChanged_nextArrival (d : Device) (o : Owner) (i : Fin 256) :
    (d.noteChanged o i).nextArrival = d.nextArrival := rfl
@[simp] theorem noteChanged_grants (d : Device) (o : Owner) (i : Fin 256) : (d.noteChanged o i).grants = d.grants := rfl
@[simp] theorem noteChanged_runs (d : Device) (o : Owner) (i : Fin 256) : (d.noteChanged o i).runs = d.runs := rfl
@[simp] theorem noteChanged_nextRun (d : Device) (o : Owner) (i : Fin 256) :
    (d.noteChanged o i).nextRun = d.nextRun := rfl
@[simp] theorem noteChanged_taps (d : Device) (o : Owner) (i : Fin 256) : (d.noteChanged o i).taps = d.taps := rfl
@[simp] theorem noteChanged_injectors (d : Device) (o : Owner) (i : Fin 256) :
    (d.noteChanged o i).injectors = d.injectors := rfl
@[simp] theorem noteChanged_links (d : Device) (o : Owner) (i : Fin 256) : (d.noteChanged o i).links = d.links := rfl

@[simp] theorem attendCircuit_now (d : Device) (o : Owner) (i : Fin 256) : (d.attendCircuit o i).now = d.now := rfl
@[simp] theorem attendCircuit_draws (d : Device) (o : Owner) (i : Fin 256) :
    (d.attendCircuit o i).draws = d.draws := rfl
@[simp] theorem attendCircuit_rst (d : Device) (o : Owner) (i : Fin 256) : (d.attendCircuit o i).rst = d.rst := rfl
@[simp] theorem attendCircuit_lineIn (d : Device) (o : Owner) (i : Fin 256) :
    (d.attendCircuit o i).lineIn = d.lineIn := rfl
@[simp] theorem attendCircuit_eeprom (d : Device) (o : Owner) (i : Fin 256) :
    (d.attendCircuit o i).eeprom = d.eeprom := rfl
@[simp] theorem attendCircuit_running (d : Device) (o : Owner) (i : Fin 256) :
    (d.attendCircuit o i).running = d.running := rfl
@[simp] theorem attendCircuit_pendingNode (d : Device) (o : Owner) (i : Fin 256) :
    (d.attendCircuit o i).pendingNode = d.pendingNode := rfl
@[simp] theorem attendCircuit_loading (d : Device) (o : Owner) (i : Fin 256) :
    (d.attendCircuit o i).loading = d.loading := rfl
@[simp] theorem attendCircuit_storing (d : Device) (o : Owner) (i : Fin 256) :
    (d.attendCircuit o i).storing = d.storing := rfl
@[simp] theorem attendCircuit_ports (d : Device) (o : Owner) (i : Fin 256) :
    (d.attendCircuit o i).ports = ((d.raiseOwner o .circuit).noteChanged o i).ports := rfl
@[simp] theorem attendCircuit_check (d : Device) (o : Owner) (i : Fin 256) :
    (d.attendCircuit o i).check = d.check := rfl
@[simp] theorem attendCircuit_clock (d : Device) (o : Owner) (i : Fin 256) :
    (d.attendCircuit o i).clock = d.clock := rfl
@[simp] theorem attendCircuit_windows (d : Device) (o : Owner) (i : Fin 256) :
    (d.attendCircuit o i).windows = d.windows := rfl
@[simp] theorem attendCircuit_circuits (d : Device) (o : Owner) (i : Fin 256) :
    (d.attendCircuit o i).circuits = d.circuits := rfl
@[simp] theorem attendCircuit_queue (d : Device) (o : Owner) (i : Fin 256) :
    (d.attendCircuit o i).queue = d.queue := rfl
@[simp] theorem attendCircuit_nextArrival (d : Device) (o : Owner) (i : Fin 256) :
    (d.attendCircuit o i).nextArrival = d.nextArrival := rfl
@[simp] theorem attendCircuit_grants (d : Device) (o : Owner) (i : Fin 256) :
    (d.attendCircuit o i).grants = d.grants := rfl
@[simp] theorem attendCircuit_runs (d : Device) (o : Owner) (i : Fin 256) : (d.attendCircuit o i).runs = d.runs := rfl
@[simp] theorem attendCircuit_nextRun (d : Device) (o : Owner) (i : Fin 256) :
    (d.attendCircuit o i).nextRun = d.nextRun := rfl
@[simp] theorem attendCircuit_taps (d : Device) (o : Owner) (i : Fin 256) : (d.attendCircuit o i).taps = d.taps := rfl
@[simp] theorem attendCircuit_injectors (d : Device) (o : Owner) (i : Fin 256) :
    (d.attendCircuit o i).injectors = d.injectors := rfl
@[simp] theorem attendCircuit_links (d : Device) (o : Owner) (i : Fin 256) :
    (d.attendCircuit o i).links = d.links := rfl

end Sys2Proof.Machine
end

