-- ==== Sys2Proof/Laws/Table.lean ====
section
/-! SUPPORT. What the operations of a table do to the thing at an index. -/

namespace Sys2Proof.Table

variable {α β : Type} {n : Nat}

theorem ext_get {t u : Table α n} (h : ∀ i, t.get i = u.get i) : t = u := by
  rcases t with ⟨a, ha⟩
  rcases u with ⟨b, hb⟩
  have : a = b := List.ext_getElem (ha.trans hb.symm) fun i h1 _ => h ⟨i, ha ▸ h1⟩
  subst this
  rfl

theorem get_set (t : Table α n) (i j : Fin n) (a : α) : (t.set i a).get j = if j = i then a else t.get j := by
  simp only [get, set, List.getElem_set, Fin.ext_iff, eq_comm]

@[simp] theorem get_set_self (t : Table α n) (i : Fin n) (a : α) : (t.set i a).get i = a := by simp [get_set]

theorem get_set_ne (t : Table α n) {i j : Fin n} (a : α) (h : j ≠ i) : (t.set i a).get j = t.get j := by
  simp [get_set, h]

@[simp] theorem set_set (t : Table α n) (i : Fin n) (a b : α) : (t.set i a).set i b = t.set i b :=
  ext_get fun j => by by_cases h : j = i <;> simp [get_set, h]

@[simp] theorem set_get (t : Table α n) (i : Fin n) : t.set i (t.get i) = t :=
  ext_get fun j => by by_cases h : j = i <;> simp [get_set, h]

theorem modify_eq_set (t : Table α n) (i : Fin n) (f : α → α) : t.modify i f = t.set i (f (t.get i)) := rfl

@[simp] theorem get_modify_self (t : Table α n) (i : Fin n) (f : α → α) : (t.modify i f).get i = f (t.get i) := by
  simp [modify]

theorem get_modify_ne (t : Table α n) {i j : Fin n} (f : α → α) (h : j ≠ i) : (t.modify i f).get j = t.get j :=
  get_set_ne t _ h

@[simp] theorem get_all (a : α) (i : Fin n) : (Table.all n a).get i = a := by simp [get, all]

@[simp] theorem get_tabulate (f : Fin n → α) (i : Fin n) : (tabulate f).get i = f i := by simp [get, tabulate]

@[simp] theorem get_mapIdx (t : Table α n) (f : Fin n → α → β) (i : Fin n) : (t.mapIdx f).get i = f i (t.get i) := by
  simp [mapIdx]

/-- A test of every thing held is a test at every index. -/
theorem mem_cells (t : Table α n) (a : α) : a ∈ t.cells ↔ ∃ i, t.get i = a := by
  constructor
  · intro h
    obtain ⟨i, hi, rfl⟩ := List.getElem_of_mem h
    exact ⟨⟨i, t.size ▸ hi⟩, rfl⟩
  · rintro ⟨i, rfl⟩
    exact List.getElem_mem _

/-- The index found is the lowest that meets the test. -/
theorem find_lowest {p : Fin n → Bool} {i : Fin n} :
    (List.finRange n).find? p = some i ↔ p i = true ∧ ∀ j, j < i → p j = false := by
  rw [List.find?_eq_some_iff_getElem]
  constructor
  · rintro ⟨h, m, hm, e, k⟩
    have e : m = i.val := by simpa [Fin.ext_iff] using e
    refine ⟨h, fun j hj => ?_⟩
    simpa using k j.val (e ▸ hj)
  · rintro ⟨h, k⟩
    refine ⟨h, i.val, by simp, by simp, fun j hj => ?_⟩
    simpa using k ⟨j, hj.trans i.isLt⟩ hj

/-- The lowest free place is free, and every place below it is taken. -/
theorem firstFree_eq_some {t : Table (Option α) n} {i : Fin n} :
    t.firstFree = some i ↔ t.get i = none ∧ ∀ j, j < i → (t.get j).isSome = true := by
  simp [firstFree, find_lowest]

/-- The lowest free place is free. -/
theorem firstFree_free {t : Table (Option α) n} {i : Fin n} (h : t.firstFree = some i) : t.get i = none :=
  (firstFree_eq_some.mp h).1

/-- There is no lowest free place exactly where every place is taken. -/
theorem firstFree_none {t : Table (Option α) n} : t.firstFree = none ↔ ∀ i, (t.get i).isSome = true := by
  simp [firstFree, List.find?_eq_none, Option.ne_none_iff_isSome]

end Sys2Proof.Table
end

