-- ==== Sys2Proof/Laws/Frames.lean ====
section
/-! SUPPORT. What each shared operation can do to the parts of the device that it is not about. -/

namespace Sys2Proof.Machine

/-- The fields that no operation on circuits, runs, windows, queue or links writes are the same in `e` as in `d`. -/
structure SameOutside (d e : Device) : Prop where
  now : e.now = d.now
  draws : e.draws = d.draws
  rst : e.rst = d.rst
  lineIn : e.lineIn = d.lineIn
  eeprom : e.eeprom = d.eeprom
  running : e.running = d.running
  pendingNode : e.pendingNode = d.pendingNode
  loading : e.loading = d.loading
  storing : e.storing = d.storing
  clock : e.clock = d.clock

namespace SameOutside

theorem rfl' (d : Device) : SameOutside d d := ⟨rfl, rfl, rfl, rfl, rfl, rfl, rfl, rfl, rfl, rfl⟩

theorem trans {d e f : Device} (h : SameOutside d e) (k : SameOutside e f) : SameOutside d f :=
  ⟨k.now.trans h.now, k.draws.trans h.draws, k.rst.trans h.rst, k.lineIn.trans h.lineIn, k.eeprom.trans h.eeprom,
    k.running.trans h.running, k.pendingNode.trans h.pendingNode, k.loading.trans h.loading,
    k.storing.trans h.storing, k.clock.trans h.clock⟩

theorem thenIf {d e x : Device} {c : Prop} [Decidable c] (h : SameOutside d e) (k : SameOutside e x) :
    SameOutside d (if c then x else e) := by
  split
  · exact h.trans k
  · exact h

/-- A fold of operations that keep the outside keeps it. -/
theorem foldl {α : Type} {f : Device → α → Device} (h : ∀ d a, SameOutside d (f d a)) (l : List α) (d : Device) :
    SameOutside d (l.foldl f d) := by
  induction l generalizing d with
  | nil => exact rfl' d
  | cons a l ih => exact (h d a).trans (ih (f d a))

end SameOutside

theorem onCircuit_same (d : Device) (i : Fin 256) (f : Circuit → Circuit) : SameOutside d (d.onCircuit i f) :=
  ⟨rfl, rfl, rfl, rfl, rfl, rfl, rfl, rfl, rfl, rfl⟩

theorem onRun_same (d : Device) (r : Fin 32) (f : Run → Run) : SameOutside d (d.onRun r f) :=
  ⟨rfl, rfl, rfl, rfl, rfl, rfl, rfl, rfl, rfl, rfl⟩

theorem port_same (d : Device) (p : Fin 4) (f : PortCtx → PortCtx) : SameOutside d (d.port p f) :=
  ⟨rfl, rfl, rfl, rfl, rfl, rfl, rfl, rfl, rfl, rfl⟩

theorem respond_same (d : Device) (p : Fin 4) (code rc : Nat) (body : List Byte) :
    SameOutside d (d.respond p code rc body) := port_same d p _

theorem raiseWhere_same (d : Device) (sel : Fin 4 → Bool) (c : AttClass) : SameOutside d (d.raiseWhere sel c) :=
  ⟨rfl, rfl, rfl, rfl, rfl, rfl, rfl, rfl, rfl, rfl⟩

theorem raiseLine_same (d : Device) (c : AttClass) : SameOutside d (d.raiseLine c) := raiseWhere_same d _ c

theorem raiseOwner_same (d : Device) (o : Owner) (c : AttClass) : SameOutside d (d.raiseOwner o c) :=
  raiseWhere_same d _ c

theorem attendCircuit_same (d : Device) (o : Owner) (i : Fin 256) : SameOutside d (d.attendCircuit o i) :=
  ⟨rfl, rfl, rfl, rfl, rfl, rfl, rfl, rfl, rfl, rfl⟩

theorem attendChange_same (d : Device) (i : Fin 256) (b : Option Circuit) : SameOutside d (d.attendChange i b) := by
  unfold Device.attendChange
  split
  · exact .rfl' d
  · split
    · exact .rfl' d
    · exact attendCircuit_same d _ i

theorem raiseCheck_same (d : Device) (c : CheckCause) : SameOutside d (d.raiseCheck c) := by
  unfold Device.raiseCheck
  split <;> exact ⟨rfl, rfl, rfl, rfl, rfl, rfl, rfl, rfl, rfl, rfl⟩

theorem link_same (d : Device) (g : Fin 4) (f : Link → Link) : SameOutside d (d.link g f) :=
  ⟨rfl, rfl, rfl, rfl, rfl, rfl, rfl, rfl, rfl, rfl⟩

/-- R156: a message handed to a link does one of three things. -/
theorem send_cases (d : Device) (g : Fin 4) (m : Message) :
    (d.send g m = d ∧ (d.links.get g).state ≠ .up) ∨
      ((d.links.get g).state = .up ∧ (d.links.get g).queue.length < 16 ∧
        d.send g m = d.link g fun l => { l with queue := l.queue ++ [m] }) ∨
      ((d.links.get g).state = .up ∧ 16 ≤ (d.links.get g).queue.length ∧ d.send g m = d.raiseLine .plant) := by
  unfold Device.send
  split
  · split
    · exact .inr (.inl ⟨‹_›, ‹_›, rfl⟩)
    · exact .inr (.inr ⟨‹_›, by omega, rfl⟩)
  · exact .inl ⟨rfl, ‹_›⟩

theorem send_same (d : Device) (g : Fin 4) (m : Message) : SameOutside d (d.send g m) := by
  rcases send_cases d g m with h | h | h
  · rw [h.1]; exact .rfl' d
  · rw [h.2.2]; exact link_same d g _
  · rw [h.2.2]; exact raiseLine_same d _

/-- A message handed to a link touches the links and the ports alone. -/
theorem send_frame (d : Device) (g : Fin 4) (m : Message) :
    { d.send g m with links := d.links, ports := d.ports } = d := by
  rcases send_cases d g m with h | h | h
  · rw [h.1]
  · rw [h.2.2]; rfl
  · rw [h.2.2]; rfl

theorem sendOpt_same (d : Device) (g : Option (Fin 4)) (m : Message) : SameOutside d (d.sendOpt g m) := by
  cases g with
  | none => exact .rfl' d
  | some g => exact send_same d g m

/-- As `send_frame`, for a degree the sender may not have. -/
theorem sendOpt_frame (d : Device) (g : Option (Fin 4)) (m : Message) :
    { d.sendOpt g m with links := d.links, ports := d.ports } = d := by
  cases g with
  | none => rfl
  | some g => exact send_frame d g m

/-- R156: a message handed to a link keeps every link sound. -/
theorem send_sound (d : Device) (g : Fin 4) (m : Message) (h : ∀ g, (d.links.get g).sound) (q : Fin 4) :
    ((d.send g m).links.get q).sound := by
  rcases send_cases d g m with k | k | k
  · rw [k.1]; exact h q
  · rw [k.2.2, link_links]
    by_cases e : q = g
    · subst e
      obtain ⟨a, -, c, e⟩ := h q
      rw [Table.get_modify_self]
      exact ⟨a, fun n => absurd k.1 n, by simpa using k.2.1, e⟩
    · rw [Table.get_modify_ne _ _ e]; exact h q
  · rw [k.2.2]; exact h q

theorem enqueue_same (d : Device) (i : Fin 256) (k : Kind) (c : QClass) : SameOutside d (d.enqueue i k c) := by
  unfold Device.enqueue
  split
  · exact .rfl' d
  · split
    · exact ⟨rfl, rfl, rfl, rfl, rfl, rfl, rfl, rfl, rfl, rfl⟩
    · unfold Device.newEntry Device.moveCounter
      split <;> exact ⟨rfl, rfl, rfl, rfl, rfl, rfl, rfl, rfl, rfl, rfl⟩

theorem putBack_same (d : Device) (g : GrantRecord) (t : Option Nat) : SameOutside d (d.putBack g t) := by
  unfold Device.putBack
  split
  · exact .rfl' d
  · split <;> exact ⟨rfl, rfl, rfl, rfl, rfl, rfl, rfl, rfl, rfl, rfl⟩

theorem giveUpListen_same (d : Device) (s : Fin 32) : SameOutside d (d.giveUpListen s) := by
  unfold Device.giveUpListen
  split
  · split
    · exact ⟨rfl, rfl, rfl, rfl, rfl, rfl, rfl, rfl, rfl, rfl⟩
    · exact .rfl' d
  · exact .rfl' d

theorem freeInjectorOf_same (d : Device) (s : Fin 32) : SameOutside d (d.freeInjectorOf s) :=
  ⟨rfl, rfl, rfl, rfl, rfl, rfl, rfl, rfl, rfl, rfl⟩

theorem freeRun_same (d : Device) (s : Fin 32) : SameOutside d (d.freeRun s) := by
  unfold Device.freeRun
  split
  · exact .rfl' d
  · obtain ⟨a, b, c, e, f, g, h, i, j, k⟩ := (giveUpListen_same d s).trans (freeInjectorOf_same _ s)
    exact ⟨a, b, c, e, f, g, h, i, j, k⟩

theorem abandonRun_same (d : Device) (i : Fin 256) (r : Reason) : SameOutside d (d.abandonRun i r) := by
  unfold Device.abandonRun
  split
  · exact .rfl' d
  · split
    · exact .rfl' d
    · dsimp only
      split
      · exact (sendOpt_same d _ _).trans (freeRun_same _ _)
      · exact ((sendOpt_same d _ _).trans (sendOpt_same _ _ _)).trans (freeRun_same _ _)

theorem onWindows_same (d : Device) (f : Window → Window) : SameOutside d (d.onWindows f) := by
  unfold Device.onWindows
  dsimp only
  split <;> exact ⟨rfl, rfl, rfl, rfl, rfl, rfl, rfl, rfl, rfl, rfl⟩

theorem intoDue_same (d : Device) (i : Fin 256) : SameOutside d (d.intoDue i) := by
  unfold Device.intoDue
  split
  · exact .rfl' d
  · split
    · exact enqueue_same d i _ _
    · exact (sendOpt_same d _ _).trans (onCircuit_same _ i _)

theorem holdBegins_same (d : Device) (i : Fin 256) : SameOutside d (d.holdBegins i) :=
  ((onCircuit_same d i _).trans (abandonRun_same _ i _)).trans (onCircuit_same _ i _)

theorem holdEnds_same (d : Device) (i : Fin 256) : SameOutside d (d.holdEnds i) :=
  (onCircuit_same d i _).trans (intoDue_same _ i)

theorem holdChange_same (d : Device) (i : Fin 256) (h : HoldChange) : SameOutside d (d.holdChange i h) := by
  unfold Device.holdChange
  dsimp only
  split
  · exact (holdBegins_same d i).trans (attendChange_same _ i _)
  · exact (holdEnds_same d i).trans (attendChange_same _ i _)
  · exact ((holdBegins_same d i).trans (holdEnds_same _ i)).trans (attendChange_same _ i _)
  · exact .rfl' d
  · exact .rfl' d

theorem calendarTakes_same (d : Device) (i : Fin 256) : SameOutside d (d.calendarTakes i) := by
  unfold Device.calendarTakes
  split
  · exact .rfl' d
  · dsimp only
    split
    · exact .rfl' d
    · obtain ⟨a, b, c, e, f, g, h, i, j, k⟩ := holdChange_same _ i _
      exact ⟨a, b, c, e, f, g, h, i, j, k⟩

theorem applyEdit_same (d : Device) (i : Fin 256) (x : Desc) (path : Bool) : SameOutside d (d.applyEdit i x path) := by
  unfold Device.applyEdit
  dsimp only
  split
  · split
    · obtain ⟨a, b, c, e, f, g, h, i, j, k⟩ := calendarTakes_same _ i
      exact ⟨a, b, c, e, f, g, h, i, j, k⟩
    · exact (onCircuit_same d i _).trans (calendarTakes_same _ i)
  · exact onCircuit_same d i _

theorem judgeStaged_same (d : Device) (i : Fin 256) : SameOutside d (d.judgeStaged i) := by
  unfold Device.judgeStaged
  split
  · exact .rfl' d
  · split
    · exact .rfl' d
    · split
      · exact .rfl' d
      · dsimp only
        split
        · exact (onCircuit_same d i _).trans (raiseOwner_same _ _ _)
        · exact ((onCircuit_same d i _).trans (applyEdit_same _ i _ _)).trans (raiseOwner_same _ _ _)

theorem dropRun_same (d : Device) (s : Fin 32) : SameOutside d (d.dropRun s) := by
  unfold Device.dropRun
  split
  · exact .rfl' d
  · exact (freeRun_same d s).trans (judgeStaged_same _ _)

theorem closeListen_same (d : Device) (s : Fin 32) : SameOutside d (d.closeListen s) := by
  unfold Device.closeListen
  split
  · exact .rfl' d
  · split
    · exact .rfl' d
    · exact ⟨rfl, rfl, rfl, rfl, rfl, rfl, rfl, rfl, rfl, rfl⟩

theorem applyOutcome_same (d : Device) (i : Fin 256) (o : RunOutcome) (l : Option HopList) :
    SameOutside d (d.applyOutcome i o l) := by
  unfold Device.applyOutcome
  split
  · exact .rfl' d
  · split
    · exact .rfl' d
    · dsimp only
      split
      · exact ((onCircuit_same d i _).trans (attendChange_same _ i _)).trans (raiseOwner_same _ _ _)
      · exact (((onCircuit_same d i _).trans (onWindows_same _ _)).trans (attendChange_same _ i _)).trans
          (raiseOwner_same _ _ _)

theorem deferRun_same (d : Device) (s : Fin 32) : SameOutside d (d.deferRun s) := by
  unfold Device.deferRun
  split
  · exact putBack_same _ _ _
  · exact .rfl' _

theorem endHead_same (d : Device) (s : Fin 32) (f : Finding) (cancel : Bool) : SameOutside d (d.endHead s f cancel) := by
  unfold Device.endHead
  split
  · exact .rfl' d
  next r hr =>
  split
  · exact .rfl' d
  next c hc =>
  dsimp only
  refine .trans ?_ (judgeStaged_same _ _)
  refine .trans ?_ (freeRun_same _ _)
  refine .thenIf ?_ (sendOpt_same _ _ _)
  refine .trans ?_ (sendOpt_same _ _ _)
  refine .thenIf (.trans ?_ (applyOutcome_same _ _ _ _)) ?_
  · exact .thenIf ((giveUpListen_same d s).trans (freeInjectorOf_same _ s)) (raiseCheck_same _ _)
  · exact deferRun_same _ _

theorem attach_same (d : Device) (i : Fin 256) (r : RunId) (k : Kind) : SameOutside d (d.attach i r k) :=
  onCircuit_same d i _

theorem announceHead_same (d : Device) (s : Fin 32) : SameOutside d (d.announceHead s) := by
  unfold Device.announceHead
  split
  · exact .rfl' d
  · split
    · exact .rfl' d
    · split
      · exact send_same d _ _
      · exact endHead_same d s _ _

theorem grant_same (d : Device) : SameOutside d d.grant := by
  have promoted : SameOutside d d.promote := ⟨rfl, rfl, rfl, rfl, rfl, rfl, rfl, rfl, rfl, rfl⟩
  unfold Device.grant
  dsimp only
  split
  · split
    · refine SameOutside.trans ?_ (announceHead_same _ _)
      exact ⟨rfl, rfl, rfl, rfl, rfl, rfl, rfl, rfl, rfl, rfl⟩
    · exact promoted
  · exact promoted

theorem preempt_same (d : Device) : SameOutside d d.preempt := by
  unfold Device.preempt
  split
  · exact .rfl' d
  · split
    · exact .rfl' d
    · exact ((sendOpt_same d _ _).trans (putBack_same _ _ _)).trans (dropRun_same _ _)

theorem grantAll_same (fuel : Nat) (judge : Bool) (d : Device) : SameOutside d (Device.grantAll fuel judge d) := by
  induction fuel generalizing judge d with
  | zero => exact .rfl' d
  | succ n ih =>
    unfold Device.grantAll
    split
    · exact (grant_same d).trans (ih _ _)
    · split
      · exact (preempt_same d).trans (ih _ _)
      · exact .rfl' d

/-- R94, R98: the Arbiter's judgement leaves the clock, the configuration and what is outside the part alone. -/
theorem arbitrate_same (before : Device) (judge : Bool) (d : Device) : SameOutside d (Device.arbitrate before judge d) :=
  grantAll_same _ _ d

theorem moveWindow_same (d : Device) (w : Fin 16) (x : Window) : SameOutside d (d.moveWindow w x) :=
  ⟨rfl, rfl, rfl, rfl, rfl, rfl, rfl, rfl, rfl, rfl⟩

theorem askBaseline_same (d : Device) (i : Fin 256) : SameOutside d (d.askBaseline i) := by
  unfold Device.askBaseline
  split
  · exact .rfl' d
  · split
    · exact enqueue_same d i _ _
    · exact sendOpt_same d _ _

theorem toBaselining_same (w : Fin 16) (d : Device) : SameOutside d (d.toBaselining w) := by
  unfold Device.toBaselining
  split
  · exact .rfl' d
  · split
    · exact (moveWindow_same d w _).trans (.foldl askBaseline_same _ _)
    · exact .rfl' d

theorem toOpen_same (w : Fin 16) (d : Device) : SameOutside d (d.toOpen w) := by
  unfold Device.toOpen
  split
  · exact .rfl' d
  · split
    · exact (moveWindow_same d w _).trans (.foldl (fun d i => onCircuit_same d i _) _ _)
    · exact .rfl' d

theorem toVerifying_same (w : Fin 16) (d : Device) : SameOutside d (d.toVerifying w) := by
  unfold Device.toVerifying
  split
  · exact .rfl' d
  · split
    · exact moveWindow_same d w _
    · exact .rfl' d

theorem toDone_same (w : Fin 16) (d : Device) : SameOutside d (d.toDone w) := by
  unfold Device.toDone
  split
  · exact .rfl' d
  · split
    · exact moveWindow_same d w _
    · exact .rfl' d

theorem toOverdue_same (w : Fin 16) (d : Device) : SameOutside d (d.toOverdue w) := by
  unfold Device.toOverdue
  split
  · exact .rfl' d
  · split
    · exact moveWindow_same d w _
    · exact .rfl' d

theorem walkWindow_same (d : Device) (w : Fin 16) : SameOutside d (d.walkWindow w) :=
  ((((toBaselining_same w d).trans (toOpen_same w _)).trans (toVerifying_same w _)).trans (toDone_same w _)).trans
    (toOverdue_same w _)

theorem deliver_same (b a : Table (Option Window) 16) (d : Device) (i : Fin 256) : SameOutside d (deliver b a d i) := by
  unfold deliver
  dsimp only
  split
  · exact .rfl' d
  · exact holdChange_same d i _

/-- R58, R64: an evaluation leaves the clock, the configuration and what is outside the part alone. -/
theorem evaluate_same (d : Device) : SameOutside d d.evaluate :=
  (SameOutside.foldl walkWindow_same _ d).trans (.foldl (deliver_same _ _) _ _)

/-- R44, R47: a tick, from the clock's own change on. -/
theorem tick_running (d : Device) : d.tick.running = d.running := by
  unfold Device.tick
  split
  · split <;> rfl
  · dsimp only
    split
    · exact (evaluate_same _).running
    · rfl

end Sys2Proof.Machine
end

