-- ==== Sys2Proof/Laws/Requests.lean ====
section
/-! SUPPORT. When a request is executed, a message handed over and an expiry taken, what is left of the command. -/

namespace Sys2Proof.Machine

theorem takes_iff (d : Device) (p : Fin 4) :
    d.takes p = true ↔ d.rst = false ∧ d.served p = true ∧ d.turnsAway p = false := by
  simp [Device.takes, and_assoc]

/-- R164: an executed request is refused by the gate or reaches its block. -/
theorem request_taken {d : Device} {p : Fin 4} (h : d.takes p = true) (r : CommandRule) (ok : Bool)
    (act : Device → Device) :
    d.request r p ok act = match d.gate r p ok with
      | some rc => d.respond p r.code rc []
      | none => act d := by
  obtain ⟨a, b, c⟩ := (takes_iff d p).1 h
  cases hg : d.gate r p ok <;> simp [Device.request, a, b, c, hg]

/-- A request on a CONFIGURED part, with the role and the length its command calls for, reaches its block. -/
theorem request_any {d : Device} {p : Fin 4} (h : d.takesAny p = true) (code : Nat) (early : Bool)
    (act : Device → Device) : d.request ⟨code, false, early⟩ p true act = act d := by
  obtain ⟨t, c⟩ := (Bool.and_eq_true _ _).mp h
  simp [request_taken t, Device.gate, c]

/-- A LINE port's request on a command for LINE ports reaches its block. -/
theorem request_line {d : Device} {p : Fin 4} (h : d.takesLine p = true) (code : Nat) (act : Device → Device) :
    d.request ⟨code, true, false⟩ p true act = act d := by
  obtain ⟨t, c⟩ := (Bool.and_eq_true _ _).mp h
  have configured : d.configured = true := by
    cases e : d.running with
    | none => simp [Device.isLine, Device.role, e] at c
    | some g => simp [Device.configured, e]
  simp [request_taken t, Device.gate, c, configured]

/-- A request taken while the part is UNCONFIGURED too reaches its block. -/
theorem request_early {d : Device} {p : Fin 4} (h : d.takes p = true) (code : Nat) (act : Device → Device) :
    d.request ⟨code, false, true⟩ p true act = act d := by
  simp [request_taken h, Device.gate]

theorem linkTakes_iff (d : Device) (g : Fin 4) :
    d.linkTakes g = true ↔ d.rst = false ∧ (d.links.get g).state = .up := by simp [Device.linkTakes]

/-- R149: a well-formed message on an UP link is handed to the Run Engine once it has moved the silence deadline. -/
theorem receive_taken {d : Device} {g : Fin 4} {m : Message} (h : d.linkTakes g = true) (w : m.wf = true)
    (f : Device → Device) : unlessReset (Device.receive g m f) d = f (d.heard g) := by
  obtain ⟨a, b⟩ := (linkTakes_iff d g).1 h
  simp [unlessReset, Device.receive, a, b, w]

theorem heard_same (d : Device) (g : Fin 4) : SameOutside d (d.heard g) := link_same d g _

/-- R148: a valid frame touches its link's silence deadline alone. -/
theorem heard_frame (d : Device) (g : Fin 4) : { d.heard g with links := d.links } = d := rfl

/-- R2: a command about a circuit that the port may name reaches its own judgement. -/
theorem onNamed_taken {d : Device} {p : Fin 4} {body : List Byte} {right : Right} {c : Circuit}
    (h : d.mayName p body right c) (code : Nat) (act : Fin 256 → Circuit → Device) :
    d.onNamed p code right body act = act (namedIndex body) c := by
  simp [Device.onNamed, h.1, h.2]

/-- R2: the record named is the one at the index named. -/
theorem named_circuit {d : Device} {body : List Byte} {c : Circuit} (h : d.named body = some c) :
    d.circuit (namedIndex body) = some c ∧ c.cid = namedCid body := by
  simpa [Device.named, Option.filter_eq_some_iff] using h

/-- A record changed is the table with the changed record put in its place. -/
theorem onCircuit_eq {d : Device} {i : Fin 256} {c : Circuit} (h : d.circuit i = some c) (f : Circuit → Circuit) :
    d.onCircuit i f = { d with circuits := d.circuits.set i (some (f c)) } := by
  have e : d.circuits.get i = some c := h
  simp [Device.onCircuit, Table.modify, e]

/-- R69: attention for a change, once the record after the event is known. -/
theorem attendChange_eq {d : Device} {i : Fin 256} {c : Circuit} (h : d.circuit i = some c) (b : Option Circuit) :
    d.attendChange i b = if b.map Circuit.face = some c.face then d else d.attendCircuit c.owner i := by
  simp [Device.attendChange, h]

/-- A run changed is the table with the changed run put in its place. -/
theorem onRun_eq {d : Device} {r : Fin 32} {x : Run} (h : d.runs.get r = some x) (f : Run → Run) :
    d.onRun r f = { d with runs := d.runs.set r (some (f x)) } := by
  simp [Device.onRun, Table.modify, h]

/-- A link changed is the table with the changed link put in its place. -/
theorem link_eq (d : Device) (g : Fin 4) (f : Link → Link) :
    d.link g f = { d with links := d.links.set g (f (d.links.get g)) } := rfl

/-- R104: an expiry of a run that waits finds the time base at its deadline at least. -/
theorem onWaitIn_taken {d : Device} {slot : Fin 32} {r : Run} {runs : Run → Bool} (h : d.runs.get slot = some r)
    (w : runs r = true) (f : Device → Run → Device) : Device.onWaitIn slot runs f d = f (d.reach r.deadline) r := by
  simp [Device.onWaitIn, h, w]

end Sys2Proof.Machine
end

