-- ==== Sys2Proof/Laws/Runs.lean ====
section
/-! SUPPORT. What freeing a run does, how a message finds its run, and what a message handed to a link leaves. -/

namespace Sys2Proof.Machine

/-- R13, R76: a record once its run is detached. -/
def Circuit.detached (d : Device) (c : Circuit) : Circuit :=
  if c.desc.role ≠ .head ∧ c.service = .due then { c with run := none }.startTimer d.now d.requestInterval 1
  else { c with run := none }

/-- R104: a run freed, field by field. -/
theorem freeRun_eq {d : Device} {slot : Fin 32} {r : Run} (h : d.runs.get slot = some r) :
    d.freeRun slot = { d with
      runs := d.runs.set slot none
      grants := d.grants.filter fun g => g.slot != slot
      injectors := (d.freeInjectorOf slot).injectors
      taps := if r.listen = .opened then (d.releaseSlots slot).taps else d.taps
      circuits := d.circuits.modify r.circuit (·.map (Circuit.detached d)) } := by
  unfold Device.freeRun
  simp only [h, Device.giveUpListen]
  split
  · simp only [Device.onRun, Table.modify, Device.freeInjectorOf, Table.set_set, Device.detach, Device.onCircuit]
    rfl
  · rfl

/-- As `freeRun_eq`, where the run's circuit is known. -/
theorem freeRun_circuit {d : Device} {slot : Fin 32} {r : Run} {c : Circuit} (h : d.runs.get slot = some r)
    (hc : d.circuit r.circuit = some c) :
    d.freeRun slot = { d with
      runs := d.runs.set slot none
      grants := d.grants.filter fun g => g.slot != slot
      injectors := (d.freeInjectorOf slot).injectors
      taps := if r.listen = .opened then (d.releaseSlots slot).taps else d.taps
      circuits := d.circuits.set r.circuit (some (c.detached d)) } := by
  have e : d.circuits.get r.circuit = some c := hc
  rw [freeRun_eq h]
  simp [Table.modify, e]

/-- R20: without a staged edit there is nothing to judge. -/
theorem judgeStaged_none {d : Device} {i : Fin 256} {c : Circuit} (h : d.circuit i = some c) (s : c.staged = none) :
    d.judgeStaged i = d := by simp [Device.judgeStaged, h, s]

theorem detached_staged (d : Device) (c : Circuit) : (c.detached d).staged = c.staged := by
  unfold Circuit.detached; split <;> rfl

/-- R104: a run freed without a verdict: the run freed, and then the staged edit of its record judged. -/
theorem dropRun_eq {d : Device} {slot : Fin 32} {r : Run} {c : Circuit} (h : d.runs.get slot = some r)
    (hc : d.circuit r.circuit = some c) :
    d.dropRun slot = Device.judgeStaged { d with
      runs := d.runs.set slot none
      grants := d.grants.filter fun g => g.slot != slot
      injectors := (d.freeInjectorOf slot).injectors
      taps := if r.listen = .opened then (d.releaseSlots slot).taps else d.taps
      circuits := d.circuits.set r.circuit (some (c.detached d)) } r.circuit := by
  simp only [Device.dropRun, h, freeRun_circuit h hc]

/-- As `dropRun_eq`, where the record has no staged edit. -/
theorem dropRun_circuit {d : Device} {slot : Fin 32} {r : Run} {c : Circuit} (h : d.runs.get slot = some r)
    (hc : d.circuit r.circuit = some c) (s : c.staged = none) :
    d.dropRun slot = { d with
      runs := d.runs.set slot none
      grants := d.grants.filter fun g => g.slot != slot
      injectors := (d.freeInjectorOf slot).injectors
      taps := if r.listen = .opened then (d.releaseSlots slot).taps else d.taps
      circuits := d.circuits.set r.circuit (some (c.detached d)) } := by
  rw [dropRun_eq h hc]
  exact judgeStaged_none (c := c.detached d) (Table.get_set_self _ _ _) ((detached_staged d c).trans s)

/-- R36, R41: what a head run gives up first at its end touches its listen mark, the taps and the injectors alone. -/
theorem giveUpListen_eq {d : Device} {slot : Fin 32} {r : Run} (h : d.runs.get slot = some r) :
    d.giveUpListen slot = { d with
      runs := d.runs.set slot (some (if r.listen = .opened then { r with listen := .none } else r))
      taps := if r.listen = .opened then (d.releaseSlots slot).taps else d.taps } := by
  simp only [Device.giveUpListen, h]
  split
  · rw [onRun_eq (d := d.releaseSlots slot) (x := r) h]; rfl
  · rw [← h, Table.set_get]

/-- R41: no injector serves a run whose injector was freed. -/
theorem freeInjectorOf_none (d : Device) (slot : Fin 32) (j : Fin 4) :
    ((d.freeInjectorOf slot).injectors.get j).run ≠ some slot := by
  simp only [Device.freeInjectorOf, Table.get_mapIdx]
  split
  · exact (by simp [Injector.run])
  · assumption

/-- A device that a message was handed from differs in links and ports alone. -/
theorem sendOpt_eq (d : Device) (g : Option (Fin 4)) (m : Message) :
    ∃ links ports, d.sendOpt g m = { d with links := links, ports := ports } := by
  cases g with
  | none => exact ⟨_, _, rfl⟩
  | some g =>
    rcases send_cases d g m with h | h | h <;> simp only [Device.sendOpt]
    · exact ⟨_, _, h.1⟩
    · exact ⟨_, _, h.2.2⟩
    · exact ⟨_, _, h.2.2⟩

/-- R156: what a message handed to a link leaves in the links depends on the links alone. -/
theorem send_links {d e : Device} (h : d.links = e.links) (g : Fin 4) (m : Message) :
    (d.send g m).links = (e.send g m).links := by
  unfold Device.send
  rw [h]
  split
  · split
    · simp [h]
    · simpa using h
  · exact h

/-- As `send_links`, for a degree the sender may not have. -/
theorem sendOpt_links {d e : Device} (h : d.links = e.links) (g : Option (Fin 4)) (m : Message) :
    (d.sendOpt g m).links = (e.sendOpt g m).links := by
  cases g with
  | none => exact h
  | some g => exact send_links h g m

/-- R106: a message on the right degree finds its run. -/
theorem matched_eq {d : Device} {cid : Nat} {run : RunId} {slot : Fin 32} {r : Run} {g : Fin 4}
    {side : Run → Option (Fin 4)} (h : d.findRun cid run = some slot) (hr : d.runs.get slot = some r)
    (hg : side r = some g) : d.matched cid run side g = some (slot, r) := by
  simp [Device.matched, h, hr, hg]

/-- R106: a message that finds its run is what that run does with it. -/
theorem onMatched_eq {d : Device} {cid : Nat} {run : RunId} {slot : Fin 32} {r : Run} {g : Fin 4}
    {side : Run → Option (Fin 4)} (h : d.findRun cid run = some slot) (hr : d.runs.get slot = some r)
    (hg : side r = some g) (f : Fin 32 → Run → Device) : d.onMatched cid run side g f = f slot r := by
  simp [Device.onMatched, matched_eq h hr hg]

/-- A run found has both ids. -/
theorem findRun_ids {d : Device} {cid : Nat} {run : RunId} {slot : Fin 32} {r : Run}
    (h : d.findRun cid run = some slot) (hr : d.runs.get slot = some r) : r.id = run ∧ d.cidOf r.circuit = cid := by
  have := List.find?_some h
  simp [hr] at this
  cases q : d.circuit r.circuit with
  | none => simp [q] at this
  | some c => simp [q] at this; simp [Device.cidOf, q, this]

end Sys2Proof.Machine
end

