-- ==== Sys2Proof/Laws/Attention.lean ====
section
/-! SUPPORT. What raising attention sets and keeps, what a change of the windows leaves, and what an outcome leaves of
the record it is applied to. -/

namespace Sys2Proof.Machine

/-! ### Attention (R69, R171) -/

/-- R171: a class raised on a port is set. -/
theorem raise_sets (x : PortCtx) (now : Nat) (c : AttClass) : hasAtt (x.raise now c).attention c = true := by
  simp only [PortCtx.raise, hasAtt]
  generalize x.attention = a
  cases c <;> revert a <;> decide

/-- R171: raising a class clears none. -/
theorem raise_keeps {x : PortCtx} {k : AttClass} (h : hasAtt x.attention k = true) (now : Nat) (c : AttClass) :
    hasAtt (x.raise now c).attention k = true := by
  revert h
  simp only [PortCtx.raise, hasAtt]
  generalize x.attention = a
  cases c <;> cases k <;> revert a <;> decide

/-- R171: a class raised on the ports a test picks is set on each of them. -/
theorem raiseWhere_sets {d : Device} {sel : Fin 4 → Bool} {p : Fin 4} (h : sel p = true) (c : AttClass) :
    hasAtt ((d.raiseWhere sel c).ports.get p).attention c = true := by
  simp only [Device.raiseWhere, Table.get_mapIdx, h, if_true]
  exact raise_sets _ _ _

/-- R171: a class raised on some ports clears none on any. -/
theorem raiseWhere_keeps {d : Device} {p : Fin 4} {k : AttClass} (h : hasAtt (d.ports.get p).attention k = true)
    (sel : Fin 4 → Bool) (c : AttClass) : hasAtt ((d.raiseWhere sel c).ports.get p).attention k = true := by
  simp only [Device.raiseWhere, Table.get_mapIdx]
  split
  · exact raise_keeps h _ _
  · exact h

/-- R156: a message handed to a link clears no attention. -/
theorem sendOpt_keeps {d : Device} {p : Fin 4} {k : AttClass} (h : hasAtt (d.ports.get p).attention k = true)
    (g : Option (Fin 4)) (m : Message) : hasAtt ((d.sendOpt g m).ports.get p).attention k = true := by
  cases g with
  | none => exact h
  | some g =>
    simp only [Device.sendOpt]
    rcases send_cases d g m with e | e | e
    · rw [e.1]; exact h
    · rw [e.2.2]; exact h
    · rw [e.2.2]; exact raiseWhere_keeps h _ _

/-- R3: who an owner stands for follows from the image in force alone. -/
theorem ownedBy_congr {d e : Device} (h : e.running = d.running) (o : Owner) (q : Fin 4) :
    e.ownedBy o q = d.ownedBy o q := by
  simp only [Device.ownedBy, Device.isLine, Device.role, h]

/-- R52: what stands in a set with one more index. -/
theorem mem_insertIdx {n : Nat} {i j : Fin n} {l : List (Fin n)} : j ∈ insertIdx i l ↔ j = i ∨ j ∈ l := by
  induction l with
  | nil => simp [insertIdx]
  | cons a t ih =>
    unfold insertIdx
    split
    · simp
    · split
      · rename_i h; subst h; simp
      · simp only [List.mem_cons, ih]; tauto

/-- R69: CIRCUIT attention to the owner is the class and the index in the changed set of each of its ports. -/
theorem attendCircuit_sets {d : Device} {o : Owner} {q : Fin 4} (h : d.ownedBy o q = true) (i : Fin 256) :
    hasAtt ((d.attendCircuit o i).ports.get q).attention .circuit = true ∧
      i ∈ ((d.attendCircuit o i).ports.get q).changed := by
  have e : (d.raiseOwner o .circuit).ownedBy o q = true := h
  simp only [Device.attendCircuit, Device.noteChanged, Table.get_mapIdx, e, if_true]
  exact ⟨raiseWhere_sets (d := d) (sel := d.ownedBy o) h .circuit, mem_insertIdx.mpr (.inl rfl)⟩

/-! ### The windows (R62, R63, R65) -/

/-- R63: a change of the windows touches the windows and the ports alone. -/
theorem onWindows_eq (d : Device) (f : Window → Window) :
    ∃ ports, d.onWindows f = { d with windows := d.windows.mapIdx fun _ w => w.map f, ports := ports } := by
  simp only [Device.onWindows]
  split <;> exact ⟨_, rfl⟩

/-- R62: a resolution takes the index out of the unresolved set of a window that awaits it. -/
theorem resolve_takes {y : Window} (h : y.state.awaits = true) (i : Fin 256) : i ∉ (y.resolve i).unresolved := by
  unfold Window.resolve
  by_cases k : i ∈ y.unresolved
  · rw [if_pos (by simp [h, k])]; simp [removeIdx]
  · rw [if_neg (by simp [k])]; exact k

/-! ### An outcome applied (R77, R145, R146) -/

/-- R77 to R80: a verdict touches the service state and the retained-permit flag alone. -/
theorem take_keeps (c : Circuit) (v : Verdict) (k : RunClass) :
    { c.take v k with service := c.service, retained := c.retained } = c := by cases v <;> rfl

/-- R77: an outcome of the run attached settles the record, and otherwise touches the windows and the ports alone. -/
theorem applyOutcome_eq {d : Device} {i : Fin 256} {c : Circuit} {o : RunOutcome} (hc : d.circuit i = some c)
    (hr : c.run.map (·.id) = some o.run) (l : Option HopList) :
    ∃ ports windows, d.applyOutcome i o l = { d with
        circuits := d.circuits.set i (some (c.settle o d.clock.time l)), ports := ports, windows := windows } ∧
      (o.verdict ≠ .noVerdict → ∀ w, windows.get w = (d.windows.get w).map (·.resolve i)) ∧
      ∀ q, d.ownedBy c.owner q = true → hasAtt (ports.get q).attention .outcome = true := by
  obtain ⟨ports, windows, e, resolved⟩ : ∃ (ports : Table PortCtx 4) (windows : Table (Option Window) 16),
      (if o.verdict = .noVerdict then { d with circuits := d.circuits.set i (some (c.settle o d.clock.time l)) }
        else Device.resolve { d with circuits := d.circuits.set i (some (c.settle o d.clock.time l)) } i) =
        { d with
          circuits := d.circuits.set i (some (c.settle o d.clock.time l)), ports := ports, windows := windows } ∧
      (o.verdict ≠ .noVerdict → ∀ w, windows.get w = (d.windows.get w).map (·.resolve i)) := by
    split
    · exact ⟨_, _, rfl, fun h => absurd ‹_› h⟩
    · obtain ⟨_, e⟩ :=
        onWindows_eq { d with circuits := d.circuits.set i (some (c.settle o d.clock.time l)) } (·.resolve i)
      exact ⟨_, _, e, fun _ w => by simp⟩
  have told : ∀ e : Device, e.running = d.running → ∀ q, d.ownedBy c.owner q = true →
      hasAtt ((e.raiseOwner c.owner .outcome).ports.get q).attention .outcome = true := fun e h q hq =>
    raiseWhere_sets (d := e) (sel := e.ownedBy c.owner) ((ownedBy_congr h _ _).trans hq) .outcome
  unfold Device.applyOutcome
  simp only [hc]
  rw [if_neg (by simp [hr]), onCircuit_eq hc, e,
    attendChange_eq (c := c.settle o d.clock.time l) (by simp [Device.circuit])]
  split <;> exact ⟨_, _, rfl, resolved, told _ rfl⟩

end Sys2Proof.Machine
end

