-- ==== Sys2Proof/Laws/Bodies.lean ====
section
/-! SUPPORT. How frames, images and bodies are read: what stands between two delimiters, when a table of items is read,
and what the fields of a description and of an edit spell. -/

namespace Sys2Proof.Machine

/-! ### Frames (R148, R187) -/

/-- R148: bytes without a delimiter open no further frame. -/
theorem framesIn_none {bytes : List Byte} (h : 0x7E ∉ bytes) : framesIn bytes = [] := by
  induction bytes with
  | nil => rfl
  | cons b rest ih =>
    rw [List.mem_cons, not_or] at h
    obtain ⟨hb, hr⟩ := h
    rw [framesIn, if_neg (Ne.symm hb), ih hr]

/-- R148: a delimiter opens a frame with what follows it. -/
theorem framesIn_append {before : List Byte} (h : 0x7E ∉ before) (rest : List Byte) :
    framesIn (before ++ 0x7E :: rest) = rest :: framesIn rest := by
  induction before with
  | nil => rw [List.nil_append, framesIn, if_pos rfl]
  | cons b bs ih =>
    rw [List.mem_cons, not_or] at h
    obtain ⟨hb, hr⟩ := h
    rw [List.cons_append, framesIn, if_neg (Ne.symm hb), ih hr]

/-- R187: a frame ends at the next delimiter. -/
theorem unescape_append {before : List Byte} (h : 0x7E ∉ before) (rest : List Byte) (esc : Bool) :
    unescape esc (before ++ 0x7E :: rest) = unescape esc before := by
  induction before generalizing esc with
  | nil => simp only [List.nil_append, unescape, if_true]
  | cons b bs ih =>
    rw [List.mem_cons, not_or] at h
    obtain ⟨hb, hr⟩ := h
    simp only [List.cons_append, unescape, ih hr]

/-- R148: what stands before a delimiter is judged by itself. -/
theorem validFrame_append {before : List Byte} (h : 0x7E ∉ before) (rest : List Byte) :
    validFrame (before ++ 0x7E :: rest) = validFrame before := by
  unfold validFrame
  rw [unescape_append h]

/-- R148: bytes without a delimiter are one frame. -/
theorem framesArrive_one {bytes : List Byte} (h : 0x7E ∉ bytes) (g : Fin 4) (d : Device) :
    Device.framesArrive g bytes d = unlessReset (Device.takeFrame g bytes) d := by
  rw [Device.framesArrive, framesIn_none h, List.foldl_cons, List.foldl_nil]

/-- R148: at a delimiter the receiver starts again. -/
theorem framesArrive_append {before : List Byte} (h : 0x7E ∉ before) (rest : List Byte) (g : Fin 4) (d : Device) :
    Device.framesArrive g (before ++ 0x7E :: rest) d =
      Device.framesArrive g rest (Device.framesArrive g before d) := by
  have e : Device.takeFrame g (before ++ 0x7E :: rest) = Device.takeFrame g before := by
    funext b
    unfold Device.takeFrame
    rw [validFrame_append h]
  rw [framesArrive_one h, Device.framesArrive, framesIn_append h, List.foldl_cons, e, Device.framesArrive]

/-! ### Tables of items (R189) -/

/-- R189: a table is read exactly where each of its items is. -/
theorem readTable_eq_some {α : Type} {n : Nat} {dflt : α} {f : Fin n → Option α} {t : Table α n} :
    readTable n dflt f = some t ↔ ∀ i, f i = some (t.get i) := by
  constructor
  · intro h i
    unfold readTable at h
    split at h
    · rename_i all
      have s := List.all_eq_true.mp all i (List.mem_finRange i)
      obtain ⟨a, e⟩ := Option.isSome_iff_exists.mp s
      cases h
      simp [e]
    · cases h
  · intro h
    have all : ((List.finRange n).all fun i => (f i).isSome) = true := by simp [h]
    unfold readTable
    rw [if_pos all]
    exact congrArg some (Table.ext_get fun i => by simp [h])

/-! ### Fields of a description (R5, R7, R10) -/

theorem byteAt_lt (bs : List Byte) (n : Nat) : byteAt bs n < 256 := (bs.getD n 0).isLt

/-- R5: the ingress a role calls for. -/
theorem ingressFor_eq_some {r : NodeRole} {v : Nat} {x : Place} : ingressFor r v = some x ↔
    (∃ t : Fin 16, r = .head ∧ v = t.val ∧ x = .tap t) ∨ ∃ g : Fin 4, r ≠ .head ∧ v = g.val ∧ x = .degree g := by
  cases r <;> simp only [ingressFor] <;> split
  all_goals constructor <;> intro h <;> simp_all
  all_goals first
    | exact ⟨⟨v, ‹_›⟩, rfl, h.symm⟩
    | (obtain ⟨t, rfl, rfl⟩ := h; rfl)
    | (obtain ⟨t, rfl, rfl⟩ := h; have := t.isLt; omega)

/-- R5: the egress a role calls for. -/
theorem egressFor_eq_some {r : NodeRole} {v : Nat} {x : Place} : egressFor r v = some x ↔
    (∃ t : Fin 16, r = .tail ∧ v = t.val ∧ x = .tap t) ∨ ∃ g : Fin 4, r ≠ .tail ∧ v = g.val ∧ x = .degree g := by
  cases r <;> simp only [egressFor] <;> split
  all_goals constructor <;> intro h <;> simp_all
  all_goals first
    | exact ⟨⟨v, ‹_›⟩, rfl, h.symm⟩
    | (obtain ⟨t, rfl, rfl⟩ := h; rfl)
    | (obtain ⟨t, rfl, rfl⟩ := h; have := t.isLt; omega)

/-- R7: a soft field's value. -/
theorem softValue_eq_some {lo hi dflt v x : Nat} (h : hi < 65535) :
    softValue lo hi dflt v = some x ↔ (v = 65535 ∧ x = dflt) ∨ (x = v ∧ lo ≤ v ∧ v ≤ hi) := by
  unfold softValue defaultMark
  split
  · constructor
    · intro e; cases e; exact .inl ⟨‹_›, rfl⟩
    · rintro (⟨-, rfl⟩ | ⟨-, -, le⟩)
      · rfl
      · omega
  · split
    · constructor
      · intro e; cases e; exact .inr ⟨rfl, ‹_›⟩
      · rintro (⟨_, -⟩ | ⟨rfl, -⟩)
        · omega
        · rfl
    · rename_i out
      constructor
      · intro e; cases e
      · rintro (⟨_, -⟩ | ⟨-, range⟩)
        · omega
        · exact absurd range out

/-- R7: a coded soft field's value. -/
theorem softCode_eq_some {α : Type} {l : List α} {dflt x : α} {v : Nat} (h : l.length ≤ 65535) :
    softCode l dflt v = some x ↔ (v = 65535 ∧ x = dflt) ∨ l[v]? = some x := by
  by_cases e : v = 65535
  · subst e
    have : l[65535]? = none := by simp [h]
    simp [softCode, defaultMark, eq_comm, this]
  · simp [softCode, defaultMark, e]

/-- R184: a soft field of one byte is the default marking for FFh and its own number for any other. -/
theorem softByte_eq {b : Nat} (h : b < 256) :
    (b = 255 ∧ softByte b = 65535) ∨ (b ≠ 255 ∧ softByte b = b ∧ b ≠ 65535) := by
  unfold softByte defaultMark
  by_cases e : b = 255
  · exact .inl ⟨e, if_pos e⟩
  · exact .inr ⟨e, if_neg e, by omega⟩

/-! ### Edits (R15) -/

/-- R15: what the changes of an edit body spell. -/
theorem changesAt_eq_some {bs : List Byte} {n at' : Nat} {l : List Change} : changesAt bs at' n = some l ↔
    l.length = n ∧ ∀ m ch, l[m]? = some ch →
      fieldTable[byteAt bs (at' + 3 * m)]? = some ch.field ∧ ch.value = fieldAt bs (at' + 3 * m + 1) 2 := by
  induction n generalizing at' l with
  | zero =>
    constructor
    · intro h; cases h; simp
    · rintro ⟨h, -⟩; rw [List.length_eq_zero_iff.mp h]; rfl
  | succ n ih =>
    have shift : ∀ m, at' + 3 * (m + 1) = at' + 3 + 3 * m := fun m => by omega
    simp only [changesAt, Option.bind_eq_bind, Option.bind_eq_some_iff]
    constructor
    · rintro ⟨f, hf, rest, hr, e⟩
      cases e
      obtain ⟨hl, hr⟩ := ih.mp hr
      refine ⟨by simp [hl], ?_⟩
      rintro (_ | m) ch h
      · cases h; exact ⟨hf, rfl⟩
      · rw [shift]; exact hr m ch (by simpa using h)
    · rintro ⟨hl, h⟩
      cases l with
      | nil => simp at hl
      | cons ch rest =>
        obtain ⟨a, b⟩ := h 0 ch rfl
        refine ⟨ch.field, a, rest, ih.mpr ⟨by simpa using hl, fun m c e => ?_⟩, ?_⟩
        · have := h (m + 1) c (by simpa using e)
          rwa [shift] at this
        · rw [show fieldAt bs (at' + 1) 2 = ch.value from b.symm]

/-- R15: a description holds what a change spells, under the resulting role. -/
def Desc.holds (role : NodeRole) (x : Desc) (ch : Change) : Prop :=
  match ch.field with
  | .role => nodeRoleTable[ch.value]? = some x.role
  | .hop => x.k = ch.value ∧ ch.value ≤ 15
  | .length => x.n = ch.value ∧ 2 ≤ ch.value ∧ ch.value ≤ 16
  | .channel => x.channel = ch.value ∧ 1 ≤ ch.value ∧ ch.value ≤ 96
  | .ingress => ingressFor role ch.value = some x.ingress
  | .egress => egressFor role ch.value = some x.egress
  | .dwell => softValue 1 20 5 ch.value = some x.dwell
  | .tolerance => softValue 1 100 15 ch.value = some x.tolerance
  | .policy => softCode policyTable .fail ch.value = some x.policy
  | .safe => softCode safeTable .withdrawAuto ch.value = some x.safe

/-- Two descriptions agree in a field. -/
def Desc.agreesAt (c x : Desc) : Field → Prop
  | .role => x.role = c.role
  | .hop => x.k = c.k
  | .length => x.n = c.n
  | .channel => x.channel = c.channel
  | .ingress => x.ingress = c.ingress
  | .egress => x.egress = c.egress
  | .dwell => x.dwell = c.dwell
  | .tolerance => x.tolerance = c.tolerance
  | .policy => x.policy = c.policy
  | .safe => x.safe = c.safe

theorem agreesAt_refl (c : Desc) (f : Field) : c.agreesAt c f := by cases f <;> rfl

theorem agreesAt_symm {c x : Desc} {f : Field} (h : c.agreesAt x f) : x.agreesAt c f := by
  cases f <;> exact Eq.symm h

theorem agreesAt_trans {c d x : Desc} {f : Field} (h : c.agreesAt d f) (k : d.agreesAt x f) : c.agreesAt x f := by
  cases f <;> exact Eq.trans k h

/-- Descriptions that agree in every field are one. -/
theorem ext_agreesAt {x y : Desc} (h : ∀ f, x.agreesAt y f) : x = y := by
  have := h .role; have := h .hop; have := h .length; have := h .channel; have := h .ingress
  have := h .egress; have := h .dwell; have := h .tolerance; have := h .policy; have := h .safe
  cases x; cases y; simp_all [Desc.agreesAt]

/-- Whether a change is held depends on the field it names alone. -/
theorem holds_congr {role : NodeRole} {x y : Desc} {ch : Change} (h : x.agreesAt y ch.field) :
    x.holds role ch ↔ y.holds role ch := by
  rcases ch with ⟨f, v⟩
  cases f <;> simp_all [Desc.agreesAt, Desc.holds]

/-- A field that two descriptions each hold by one change is the same in both. -/
theorem agreesAt_of_holds {role : NodeRole} {x y : Desc} {ch : Change} (h : x.holds role ch) (k : y.holds role ch) :
    x.agreesAt y ch.field := by
  rcases ch with ⟨f, v⟩
  cases f <;> simp_all [Desc.agreesAt, Desc.holds]

/-- R15: one change laid over a description: the field it names holds it, and every other is kept. -/
theorem change_eq_some {role : NodeRole} {c d : Desc} {ch : Change} (h : c.change role ch = some d) :
    d.holds role ch ∧ ∀ f, f ≠ ch.field → c.agreesAt d f := by
  rcases ch with ⟨f, v⟩
  cases f <;> simp only [Desc.change] at h <;> first
    | (rw [Option.map_eq_some_iff] at h
       obtain ⟨r, e, rfl⟩ := h
       exact ⟨by simp [Desc.holds, e], fun f hf => by cases f <;> simp_all [Desc.agreesAt]⟩)
    | (split at h
       · cases h
         exact ⟨by simp_all [Desc.holds], fun f hf => by cases f <;> simp_all [Desc.agreesAt]⟩
       · cases h)

/-- R15: a change that some description holds can be laid over any. -/
theorem change_of_holds {role : NodeRole} {x : Desc} {ch : Change} (h : x.holds role ch) (c : Desc) :
    ∃ d, c.change role ch = some d := by
  rcases ch with ⟨f, v⟩
  cases f <;> simp only [Desc.holds] at h <;> simp_all [Desc.change]

/-- R15: changes that name no field twice, laid over a description one after another: each is held, and a field that
none names is kept. -/
theorem changes_eq_some {role : NodeRole} {changes : List Change} {c x : Desc} (nd : (changes.map (·.field)).Nodup) :
    changes.foldlM (fun acc ch => acc.change role ch) c = some x ↔
      (∀ ch ∈ changes, x.holds role ch) ∧ ∀ f, f ∉ changes.map (·.field) → c.agreesAt x f := by
  induction changes generalizing c with
  | nil =>
    constructor
    · intro h; cases h; exact ⟨by simp, fun f _ => agreesAt_refl _ f⟩
    · rintro ⟨-, h⟩; simp [ext_agreesAt fun f => h f (by simp)]
  | cons ch rest ih =>
    rw [List.map_cons, List.nodup_cons] at nd
    simp only [List.foldlM_cons, Option.bind_eq_bind, Option.bind_eq_some_iff]
    constructor
    · rintro ⟨d, h, k⟩
      obtain ⟨h1, h2⟩ := change_eq_some h
      obtain ⟨k1, k2⟩ := (ih nd.2).mp k
      refine ⟨fun y hy => ?_, fun f hf => ?_⟩
      · rcases List.mem_cons.mp hy with rfl | hy
        · exact (holds_congr (k2 _ nd.1)).mp h1
        · exact k1 y hy
      · rw [List.map_cons, List.mem_cons, not_or] at hf
        exact agreesAt_trans (h2 f hf.1) (k2 f hf.2)
    · rintro ⟨h, k⟩
      obtain ⟨d, hd⟩ := change_of_holds (h ch (by simp)) c
      obtain ⟨h1, h2⟩ := change_eq_some hd
      refine ⟨d, hd, (ih nd.2).mpr ⟨fun y hy => h y (by simp [hy]), fun f hf => ?_⟩⟩
      by_cases e : f = ch.field
      · exact e ▸ agreesAt_of_holds h1 (h ch (by simp))
      · exact agreesAt_trans (agreesAt_symm (h2 f e)) (k f (by simp [e, hf]))

end Sys2Proof.Machine
end

