-- ==== Sys2Proof/Laws/Walk.lean ====
section
/-! SUPPORT. What one window's walk leaves: each transition, on a device that differs from the one the walk began with in
what a walk may touch. -/

namespace Sys2Proof.Machine

/-- `e` is `d` in the middle of the walk of window `w`, whose record is now `x`. -/
structure Walked (d : Device) (w : Fin 16) (x : Window) (e : Device) : Prop where
  windows : e.windows = d.windows.set w (some x)
  clock : e.clock = d.clock
  now : e.now = d.now
  running : e.running = d.running
  taps : e.taps = d.taps
  descs : ∀ i, (e.circuit i).map (·.desc) = (d.circuit i).map (·.desc)

/-- WINDOW attention is set on the LINE ports of `d`. -/
def Told (d e : Device) : Prop := ∀ p, d.isLine p = true → hasAtt (e.ports.get p).attention .window = true

namespace Walked

variable {d e : Device} {w : Fin 16} {x : Window}

theorem start (h : d.windows.get w = some x) : Walked d w x d :=
  ⟨by rw [← h, Table.set_get], rfl, rfl, rfl, rfl, fun _ => rfl⟩

theorem get (h : Walked d w x e) : e.windows.get w = some x := by rw [h.windows, Table.get_set_self]

theorem wallNow (h : Walked d w x e) : e.wallNow = d.wallNow := by rw [Device.wallNow, Device.wallNow, h.clock]

/-- R53: the scope of a window stays what it was. -/
theorem scopeOf (h : Walked d w x e) (y : Window) : e.scopeOf y = d.scopeOf y := by
  have scope : ∀ c, e.inScope y c = d.inScope y c := fun c => by
    unfold Device.inScope Device.references Device.ingressTap Device.egressTap Device.placeTap Device.lineTap
      Device.tapSettings
    rw [h.taps]
  unfold Device.scopeOf Table.indices
  congr 1
  funext i
  have k := h.descs i
  unfold Device.circuit at k
  cases a : e.circuits.get i <;> cases b : d.circuits.get i <;> simp_all

/-- R63: a change of the window's record, with WINDOW attention. -/
theorem moveWindow (h : Walked d w x e) (y : Window) : Walked d w y (e.moveWindow w y) ∧ Told d (e.moveWindow w y) := by
  refine ⟨⟨?_, h.clock, h.now, h.running, h.taps, h.descs⟩, fun p line => ?_⟩
  · show e.windows.set w (some y) = _
    rw [h.windows, Table.set_set]
  · refine raiseWhere_sets (d := e.putWindow w (some y)) (sel := (e.putWindow w (some y)).isLine) ?_ .window
    have r : (e.putWindow w (some y)).running = d.running := h.running
    simp only [Device.isLine, Device.role] at line ⊢
    rw [r]; exact line

theorem enqueue (h : Walked d w x e) (i : Fin 256) (k : Kind) (c : QClass) :
    Walked d w x (e.enqueue i k c) ∧ (e.enqueue i k c).circuits = e.circuits ∧ (e.enqueue i k c).ports = e.ports := by
  have same : ∀ (q : List QueueEntry) (a : Nat) (g : List GrantRecord),
      Walked d w x { e with queue := q, nextArrival := a, grants := g } :=
    fun _ _ _ => ⟨h.windows, h.clock, h.now, h.running, h.taps, h.descs⟩
  simp only [Device.enqueue, Device.mergeInto, Device.newEntry, Device.moveCounter, Device.renumber]
  split
  · exact ⟨h, rfl, rfl⟩
  · split
    · exact ⟨same _ _ _, rfl, rfl⟩
    · split <;> exact ⟨same _ _ _, rfl, rfl⟩

theorem sendOpt (h : Walked d w x e) (g : Option (Fin 4)) (m : Message) :
    Walked d w x (e.sendOpt g m) ∧ (e.sendOpt g m).circuits = e.circuits := by
  obtain ⟨links, ports, s⟩ := sendOpt_eq e g m
  rw [s]
  exact ⟨⟨h.windows, h.clock, h.now, h.running, h.taps, h.descs⟩, rfl⟩

/-- R59: a baseline asked for touches no record and clears no attention. -/
theorem askBaseline (h : Walked d w x e) (t : Told d e) (i : Fin 256) :
    Walked d w x (e.askBaseline i) ∧ Told d (e.askBaseline i) ∧ (e.askBaseline i).circuits = e.circuits := by
  unfold Device.askBaseline
  split
  · exact ⟨h, t, rfl⟩
  · split
    · obtain ⟨a, b, c⟩ := h.enqueue i .baseline .normal
      exact ⟨a, fun p line => by rw [c]; exact t p line, b⟩
    · rename_i c _ _
      obtain ⟨a, b⟩ := h.sendOpt c.upstream (.request c.cid .baseline)
      exact ⟨a, fun p line => sendOpt_keeps (t p line) _ _, b⟩

theorem askBaselines (h : Walked d w x e) (t : Told d e) (l : List (Fin 256)) :
    Walked d w x (l.foldl Device.askBaseline e) ∧ Told d (l.foldl Device.askBaseline e) ∧
      (l.foldl Device.askBaseline e).circuits = e.circuits := by
  induction l generalizing e with
  | nil => exact ⟨h, t, rfl⟩
  | cons i l ih =>
    obtain ⟨a, b, c⟩ := h.askBaseline t i
    obtain ⟨a', b', c'⟩ := ih a b
    exact ⟨a', b', c'.trans c⟩

/-- R60: a commitment on each member of a list touches those records alone, and no description. -/
theorem onMembers (h : Walked d w x e) (t : Told d e) {f : Circuit → Circuit} (hf : ∀ c, (f c).desc = c.desc)
    {l : List (Fin 256)} (nd : l.Nodup) :
    Walked d w x (l.foldl (fun b i => b.onCircuit i f) e) ∧ Told d (l.foldl (fun b i => b.onCircuit i f) e) ∧
      ∀ i, (l.foldl (fun b i => b.onCircuit i f) e).circuit i = (e.circuit i).map fun c => if i ∈ l then f c else c := by
  induction l generalizing e with
  | nil => exact ⟨h, t, fun i => by simp⟩
  | cons i l ih =>
    rw [List.nodup_cons] at nd
    have one : ∀ j, (e.onCircuit i f).circuit j = (e.circuit j).map fun c => if j = i then f c else c := fun j => by
      simp only [Device.circuit, Device.onCircuit, Table.modify, Table.get_set]
      split
      · rename_i q; subst q; rfl
      · simp
    have walked : Walked d w x (e.onCircuit i f) := by
      refine ⟨h.windows, h.clock, h.now, h.running, h.taps, fun j => ?_⟩
      rw [← h.descs j, one]
      cases e.circuit j <;> simp
      split <;> simp [hf]
    obtain ⟨a, b, c⟩ := ih walked t nd.2
    refine ⟨a, b, fun j => ?_⟩
    rw [List.foldl_cons, c, one]
    cases e.circuit j with
    | none => rfl
    | some c =>
      by_cases q : j = i
      · subst q; simp [nd.1]
      · simp [q]

/-- R59: SCHEDULED to BASELINING, where the lead has come. -/
theorem toBaselining (h : Walked d w x e) :
    ((x.state = .scheduled ∧ 0 < x.lead ∧ x.openAt.number ≤ d.wallNow + x.lead) → ∀ y : Window,
      y = { x with
        state := .baselining, baseliningSince := some ⟨d.clock.time, d.now⟩, baselineSet := d.scopeOf x } →
      Walked d w y (e.toBaselining w) ∧ Told d (e.toBaselining w) ∧ (e.toBaselining w).circuits = e.circuits ∧
        e.toBaselining w = (d.scopeOf x).foldl Device.askBaseline (e.moveWindow w y)) ∧
    (¬(x.state = .scheduled ∧ 0 < x.lead ∧ x.openAt.number ≤ d.wallNow + x.lead) → e.toBaselining w = e) := by
  simp only [Device.toBaselining, h.get, h.wallNow, h.scopeOf, h.clock, h.now]
  refine ⟨fun c y hy => ?_, fun c => if_neg c⟩
  rw [if_pos c, ← hy]
  obtain ⟨a, t⟩ := h.moveWindow y
  obtain ⟨a', t', k⟩ := a.askBaselines t (d.scopeOf x)
  exact ⟨a', t', k, rfl⟩

/-- R60: a commitment leaves the description. -/
theorem commitSince_desc (since : Option Since) (c : Circuit) : (c.commitSince since).desc = c.desc := by
  unfold Circuit.commitSince
  split
  · split <;> rfl
  · rfl

/-- R60: SCHEDULED or BASELINING to OPEN, where the open time has come. -/
theorem toOpen (h : Walked d w x e) :
    (((x.state = .scheduled ∨ x.state = .baselining) ∧ x.openAt.number ≤ d.wallNow) →
      Walked d w { x with state := .opened, members := d.scopeOf x } (e.toOpen w) ∧ Told d (e.toOpen w) ∧
        ∀ i, (e.toOpen w).circuit i =
          (e.circuit i).map fun c => if i ∈ d.scopeOf x then c.commitSince x.baseliningSince else c) ∧
    (¬((x.state = .scheduled ∨ x.state = .baselining) ∧ x.openAt.number ≤ d.wallNow) → e.toOpen w = e) := by
  simp only [Device.toOpen, h.get, h.wallNow, h.scopeOf]
  refine ⟨fun c => ?_, fun c => if_neg c⟩
  rw [if_pos c]
  obtain ⟨a, t⟩ := h.moveWindow { x with state := .opened, members := d.scopeOf x }
  have nodup : (d.scopeOf x).Nodup := List.Nodup.filter _ (List.nodup_finRange 256)
  exact a.onMembers t (commitSince_desc x.baseliningSince) nodup

/-- R61: OPEN to VERIFYING, where the close time has come or the closing flag is set. -/
theorem toVerifying (h : Walked d w x e) :
    ((x.state = .opened ∧ (x.closing = true ∨ x.closeAt.number ≤ d.wallNow)) →
      Walked d w { x with
          state := .verifying, verifyingSince := some d.clock.time, closing := false, unresolved := x.members }
        (e.toVerifying w) ∧ Told d (e.toVerifying w) ∧ (e.toVerifying w).circuits = e.circuits) ∧
    (¬(x.state = .opened ∧ (x.closing = true ∨ x.closeAt.number ≤ d.wallNow)) → e.toVerifying w = e) := by
  simp only [Device.toVerifying, h.get, h.wallNow, h.clock]
  refine ⟨fun c => ?_, fun c => if_neg c⟩
  rw [if_pos c]
  exact ⟨(h.moveWindow _).1, (h.moveWindow _).2, rfl⟩

/-- R62: VERIFYING or OVERDUE to DONE, where nothing is left unresolved. -/
theorem toDone (h : Walked d w x e) :
    ((x.state.awaits = true ∧ x.unresolved = []) →
      Walked d w { x with state := .done } (e.toDone w) ∧ Told d (e.toDone w) ∧
        (e.toDone w).circuits = e.circuits) ∧
    (¬(x.state.awaits = true ∧ x.unresolved = []) → e.toDone w = e) := by
  simp only [Device.toDone, h.get]
  refine ⟨fun c => ?_, fun c => if_neg c⟩
  rw [if_pos c]
  exact ⟨(h.moveWindow _).1, (h.moveWindow _).2, rfl⟩

/-- R62: VERIFYING to OVERDUE, where the verify limit has passed. -/
theorem toOverdue (h : Walked d w x e) :
    ((x.state = .verifying ∧ x.limitPassed d.wallNow = true) →
      Walked d w { x with state := .overdue } (e.toOverdue w) ∧ Told d (e.toOverdue w) ∧
        (e.toOverdue w).circuits = e.circuits) ∧
    (¬(x.state = .verifying ∧ x.limitPassed d.wallNow = true) → e.toOverdue w = e) := by
  simp only [Device.toOverdue, h.get, h.wallNow]
  refine ⟨fun c => ?_, fun c => if_neg c⟩
  rw [if_pos c]
  exact ⟨(h.moveWindow _).1, (h.moveWindow _).2, rfl⟩

end Walked

end Sys2Proof.Machine
end

