-- ==== Sys2Proof/Tests/Slice0.lean ====
section
/-! SUPPORT. Tests: what the check on commands refuses, a few values worked out from the spec, and for every statement
with hypotheses a state and operands that meet them. -/

namespace Sys2Proof.Tests

open Sys2Proof.Machine

set_option Elab.async false

/-! ### Ill-formed commands (R182, R187) -/

def aRun : RunId := ⟨3, 9⟩

def aHop (hop : Nat) (verdict : HopVerdict) : HopResult :=
  { hop, node := 7, inSight := .seen, inLevel := some (-100), inClass := .normal, outSight := .seen
    outLevel := some (-120), stray := none, verdict }

def anOutcome : RunOutcome := ⟨101, aRun, .verify, .verified, .pass, none, none⟩

theorem test_wf_circuit_id : (Instr.armed 0 0 aRun).wf = false ∧ (Instr.stop 0 (2 ^ 24) aRun).wf = false ∧
    (Instr.cancel 0 (2 ^ 24 - 1) aRun).wf = true := by decide

theorem test_wf_run_id : (Instr.armed 0 1 ⟨2 ^ 16, 9⟩).wf = false ∧ (Instr.armed 0 1 ⟨3, 2 ^ 16⟩).wf = false := by decide

theorem test_wf_announce : (Instr.announce 0 1 aRun .verify 16 4 5).wf = false ∧
    (Instr.announce 0 1 aRun .verify 1 1 5).wf = false ∧ (Instr.announce 0 1 aRun .verify 1 17 5).wf = false ∧
    (Instr.announce 0 1 aRun .verify 1 4 256).wf = false ∧ (Instr.announce 0 1 aRun .verify 15 16 255).wf = true := by
  decide

theorem test_wf_report : (Instr.report 0 1 aRun false []).wf = false ∧
    (Instr.report 0 1 aRun false (List.replicate 17 (aHop 1 .throughOk))).wf = false ∧
    (Instr.report 0 1 aRun false [aHop 16 .throughOk]).wf = false ∧
    (Instr.report 0 1 aRun false [{ aHop 1 .throughOk with node := 2 ^ 16 }]).wf = false ∧
    (Instr.report 0 1 aRun false [{ aHop 1 .throughOk with inLevel := some (-32768) }]).wf = false ∧
    (Instr.report 0 1 aRun false [{ aHop 1 .throughOk with outLevel := some 32768 }]).wf = false := by decide

theorem test_wf_refuse_and_outcome : (Instr.refuse 0 1 aRun 16 .busy).wf = false ∧
    (Instr.outcome 0 { anOutcome with faultHop := some 16 }).wf = false ∧ (Instr.request 0 0 .verify).wf = false := by
  decide

theorem test_wf_stray_tap : (Instr.report 0 1 aRun false [{ aHop 1 .misrouted with stray := some 254 }]).wf = true ∧
    (Instr.report 0 1 aRun false [{ aHop 1 .misrouted with stray := some 255 }]).wf = false ∧
    (Instr.outcome 0 { anOutcome with site := some (.stray 255) }).wf = true ∧
    (Instr.outcome 0 { anOutcome with site := some (.stray 256) }).wf = false := by decide

theorem test_wf_hello : (Instr.hello 0 (2 ^ 16) 0).wf = false ∧ (Instr.hello 0 1 4).wf = false := by decide

theorem test_wf_bodies : (Instr.status 0 (List.replicate 251 0)).wf = false ∧
    (Instr.configure 0 (List.replicate 250 0)).wf = true ∧ (Instr.loadEnd (some (List.replicate 163 0))).wf = false := by
  decide +kernel

theorem test_wf_front_end : (Instr.tapReading (.all 16 (-601))).wf = false ∧ (Instr.codeFrame 0 0 0 0).wf = false ∧
    (Instr.codeFrame 0 97 0 0).wf = false ∧ (Instr.codeFrame 0 96 0 0).wf = true := by decide

/-! ### Values worked out by hand -/

/-- The bytes of the digits 1 to 9, over which the three checks have well-known values. -/
def digits : List Byte := [0x31, 0x32, 0x33, 0x34, 0x35, 0x36, 0x37, 0x38, 0x39]

theorem test_crcs : crc8 digits = 0xF4 ∧ crc16 digits = 0x29B1 ∧ crc32 digits = 0xCBF43926 := by decide +kernel

theorem test_codeFrame_check : codeFrameGood (codeFrame 40001) = true ∧ codeFrameId (codeFrame 40001) = 40001 ∧
    codeFrameGood (codeFrame 40001 ^^^ 1) = false := by decide +kernel

theorem test_hello_on_the_wire : wireBytes (.hello 0x7E 2) =
    [0x7E, 0x01, 0x03, 0x00, 0x7D, 0x5E, 0x02, 0x2B, 0x95] := by decide +kernel

theorem test_mean_rounds_away_from_zero : meanLevel (-5) 2 = -3 ∧ meanLevel 5 2 = 3 ∧ meanLevel (-7) 3 = -2 := by decide

/-! ### A small node -/

def settings : Settings where
  nodeId := 7
  roles := ((Table.all 4 Role.line).set 1 .tenant).set 3 .off
  notify := .all 4 ⟨.level, 127⟩
  lines := ((Table.all 8 LineFn.none).set 0 .ppsIn).set 1 .freezeIn
  degrees := (Table.all 4 ⟨true, 0⟩).set 1 ⟨true, 12⟩
  timings := .default

def tapWith (fn : TapFn) (degree : Option (Fin 4)) : Tap :=
  { Tap.reset with settings := { fn, degree, low := -300, high := 0, trim := 0 } }

def upLink : Link := { Link.reset with state := .up, seenId := some 12, agreeing := 3, silence := some 2000 }

def head : Desc := ⟨.head, 0, 3, 10, .tap 0, .degree 1, 5, 15, .fail, .withdrawAuto⟩
def transit : Desc := ⟨.transit, 1, 3, 11, .degree 0, .degree 1, 5, 15, .fail, .withdrawAuto⟩
def tail : Desc := ⟨.tail, 2, 3, 12, .degree 0, .tap 4, 5, 15, .fail, .withdrawAuto⟩

/-- A CONFIGURED node 7 with three circuits (0 HEAD, 1 TRANSIT, 2 TAIL), every link UP and nothing in flight. -/
def node : Device :=
  { Device.powerOn with
    now := 1000
    running := some settings
    clock := { Clock.powerOn with time := ⟨5, 60, 0⟩, unset := false }
    taps := ((((((Table.all 16 Tap.reset).set 0 (tapWith .add none)).set 4 (tapWith .drop none)).set 8
      (tapWith .lineIn (some 0))).set 9 (tapWith .lineOut (some 0))).set 10 (tapWith .lineIn (some 1))).set 11
      (tapWith .lineOut (some 1))
    links := .all 4 upLink
    circuits := (((Table.all 256 none).set 0 (some (newCircuit 100 .line head))).set 1
      (some (newCircuit 101 .line transit))).set 2 (some (newCircuit 102 .line tail)) }

def nodeState : State := ⟨[], node⟩

/-- The node with one record changed. -/
def nodeCircuit (i : Fin 256) (f : Circuit → Circuit) : State := nodeState.put (node.onCircuit i f)

def runOn (role : NodeRole) (phase : Phase) (own : Option HopResult) : Run where
  id := aRun
  circuit := match role with | .head => 0 | .transit => 1 | .tail => 2
  kind := .verify
  role := role
  k := match role with | .head => 0 | .transit => 1 | .tail => 2
  n := 3
  phase := phase
  up := match role with | .head => none | _ => some 0
  down := match role with | .tail => none | _ => some 1
  dwell := 5
  deadline := 5000
  listen := if own.isSome then .closed else .opened
  own := own
  hopList := ⟨[], false⟩

/-- The node with a run in slot 0, attached to its record. -/
def nodeRun (role : NodeRole) (phase : Phase) (own : Option HopResult) : State :=
  nodeState.put (Device.attach { node with runs := node.runs.set 0 (some (runOn role phase own)) }
    (runOn role phase own).circuit aRun .verify)

/-- The body that names the circuit at an index, with more bytes after. -/
def naming (i cid : Nat) (rest : List Byte) : List Byte := be 1 i ++ be 3 cid ++ rest

/-- The state a command answers with. -/
def after (c : Instr) (s : State) : Option State :=
  match exec c s with
  | .next t => some t
  | _ => none

theorem test_image_survives_the_store : parseImage (imageBytes ⟨settings, node.taps.mapIdx fun _ t => t.settings⟩) =
    some ⟨settings, node.taps.mapIdx fun _ t => t.settings⟩ := by decide +kernel

theorem test_third_hello_takes_the_link_up :
    (after (.hello 2 15 3) (nodeState.put (node.link 2 fun l => { l with
      state := .probing, agreeing := 2, seenId := some 15 }))).map (fun t => ((t.dev.links.get 2).state,
        hasAtt (t.dev.ports.get 0).attention .plant)) = some (.up, true) := by decide +kernel

/-- R148: at a new start delimiter the receiver starts again, so a good HELLO after a cut-off one is taken. -/
theorem test_receiver_starts_again_at_a_delimiter :
    after (.frameDiscarded 1 ([0x01, 0x03, 0x00] ++ wireBytes (.hello 12 2))) nodeState =
      after (.hello 1 12 2) nodeState := by decide +kernel

theorem test_verify_at_the_head_is_granted_at_once :
    (after (.verify 0 (naming 0 100 [0])) nodeState).map (fun t => (t.dev.queue, (t.dev.runs.get 0).map (·.phase),
      (t.dev.links.get 1).queue)) = some ([], some .announcing, [.announce 100 ⟨7, 1⟩ .verify 1 3 5]) := by
  decide +kernel

/-! ### A state and operands for every statement with hypotheses -/

theorem noWindows (x : Desc) : node.uncovered x := fun w y h => by
  have e : node.windows.get w = none := Table.get_all _ _
  simp [e] at h

theorem test_meets_TransactionShiftsOutStatusAndResponse : node.rst = false ∧ node.served 3 = false ∧
    node.served 0 = true := by decide +kernel

theorem test_meets_RequestsAreTurnedAwayOrRefused : node.rst = false ∧
    ({ node with storing := some ⟨0, []⟩ } : Device).busy 0 = true ∧
    ((node.respond 0 1 0 []).ports.get 0).response.isSome = true ∧ node.takes 1 = true ∧ node.isLine 1 = false ∧
    ({ Device.powerOn with loading := true } : Device).takes 0 = true ∧ Device.powerOn.configured = false ∧
    node.configured = true ∧ node.isLine 0 = true ∧ node.takes 0 = true ∧ hasLength 3 [0, 0] = false := by decide +kernel

theorem test_meets_ShiftedBytesAreDecodedAtTheDeassertion : node.takes 0 = true ∧ byteAt [0, 1] 0 = 0 ∧
    requestFrame [0x01, 0x00] = .damaged 1 ∧ requestFrame [0x7F, 0x00, crc8 [0x7F, 0x00]] = .whole 0x7F [] ∧
    (∀ x ∈ clientCommands, x.rule.code ≠ 0x7F) ∧ requestFrame [0x01, 0x00, crc8 [0x01, 0x00], 9] = .whole 0x01 [] := by
  decide +kernel

theorem test_meets_StatusSeekAndReadAnswer : node.takes 0 = true ∧ node.takes 1 = true ∧
    tableNameTable[byteAt [0, 0, 255] 0]? = some .circuits ∧ fieldAt [0, 0, 255] 1 2 < tableSize .circuits ∧
    tableSize .circuits ≤ fieldAt [0, 1, 0] 1 2 ∧ node.role 1 = some .tenant ∧ fieldAt [8, 0, 0] 1 2 < tableSize .check ∧
    tableNameTable[byteAt [8, 0, 0] 0]? = some .check ∧
    (node.raiseCheck (.storeFailed 0)).check.isSome = true ∧ (node.raiseCheck (.storeFailed 0)).takes 0 = true ∧
    ((node.raiseCheck (.storeFailed 0)).ports.get 0).cleared = false ∧
    (node.recordAt 0 (node.ports.get 0).table (node.ports.get 0).index).isSome = true ∧
    (node.port 0 fun x => { x with index := 1 }).recordAt 0 .status 1 = none := by decide +kernel

/-- The node with the 40 lowest indices in the changed set of port 0. -/
def changedNode : Device :=
  node.port 0 fun x => { x with changed := (List.finRange 256).take 40 }

theorem test_meets_ReadChangesAndAckAttentionTakeWhatTheyName : changedNode.takesAny 0 = true ∧
    ((changedNode.ports.get 0).changed.drop 32).length = 8 ∧
    (changedNode.ports.get 0).changed.Pairwise (· < ·) ∧ byteAt [127] 0 < 128 ∧ 128 ≤ byteAt [128] 0 := by
  decide +kernel

theorem test_meets_NotifyFollowsModeMaskAndPulse : node.takesAny 0 = true ∧
    notifyModeTable[byteAt [1, 127] 0]? = some .pulse ∧ byteAt [1, 127] 1 < 128 ∧ 1 < byteAt [2, 0] 0 ∧
    128 ≤ byteAt [0, 128] 1 ∧ node.rst = false ∧
    ((node.port 0 fun x => { x with mode := .pulse, pulse := some 1005 }).ports.get 0).pulse = some 1005 ∧
    (node.ports.get 0).mode = .level := by decide +kernel

/-- The node with a check report that port 2 has cleared. -/
def clearedNode : Device := (node.raiseCheck (.storeFailed 0)).port 2 fun x => { x with cleared := true }

theorem test_meets_ClearCheckEndsTheReportAtTheLastLinePort : node.takesLine 0 = true ∧ node.check = none ∧
    clearedNode.takesLine 0 = true ∧ clearedNode.check.isSome = true ∧ (clearedNode.ports.get 0).cleared = false ∧
    (∀ q, clearedNode.isLine q = true → q ≠ 0 → (clearedNode.ports.get q).cleared = true) ∧
    clearedNode.takesLine 2 = true ∧ (clearedNode.ports.get 2).cleared = true ∧
    (node.raiseCheck (.storeFailed 0)).takesLine 0 = true ∧ (node.raiseCheck (.storeFailed 0)).isLine 2 = true ∧
    ((node.raiseCheck (.storeFailed 0)).ports.get 2).cleared = false := by decide +kernel

theorem test_meets_PortResetTouchesOneContext : node.takes 1 = true ∧ node.running = some settings ∧
    Device.powerOn.takes 1 = true ∧ Device.powerOn.running = none := by decide +kernel

theorem test_meets_AttentionAndChecksAreRaised : node.check = none ∧ clearedNode.check.isSome = true ∧
    node.role 0 = some .line ∧ node.role 1 = some .tenant ∧ node.role 3 = some .off := by decide +kernel

/-! Circuits. -/

/-- A registration of a TRANSIT record for circuit 200 with hop, path length and channel given, soft fields default. -/
def registering (cid hop n channel : Nat) : List Byte :=
  be 3 cid ++ be 1 1 ++ be 1 hop ++ be 1 n ++ be 1 channel ++ [0, 1, 255, 255, 255, 255]

def registered : Desc := ⟨.transit, 1, 3, 20, .degree 0, .degree 1, 5, 15, .fail, .withdrawAuto⟩

/-- A window over degree 0 with the members given. -/
def windowIn (state : WindowState) (members : List (Fin 256)) : Window where
  state := state
  creator := 0
  openAt := ⟨5, 30⟩
  closeAt := ⟨5, 90⟩
  lead := 10
  verifyLimit := 5
  degrees := [0]
  taps := []
  closing := false
  baseliningSince := none
  verifyingSince := none
  baselineSet := []
  members := members
  unresolved := if state = .verifying ∨ state = .overdue then members else []

def openNode : Device := node.putWindow 4 (some (windowIn .opened []))

theorem test_meets_RegistrationCreatesTheRecord : node.takesAny 0 = true ∧ (registering 200 1 3 20).length = 13 ∧
    registerDesc (registering 200 1 3 20) = some registered ∧ registered.agrees = true ∧
    node.wellFormed registered = true ∧ node.findCid (fieldAt (registering 200 1 3 20) 0 3) = none ∧
    node.conflicts none registered = false ∧ node.circuits.firstFree = some 3 ∧
    openNode.takesAny 0 = true ∧ openNode.wellFormed registered = true ∧ openNode.findCid 200 = none ∧
    openNode.conflicts none registered = false ∧ openNode.circuits.firstFree = some 3 ∧
    openNode.windows.get 4 = some (windowIn .opened []) ∧ openNode.inScope (windowIn .opened []) registered = true ∧
    (∀ w, ((openNode.windows.get w).all fun y => !y.members.contains 3) = true) ∧ openNode.runOf 3 = none := by
  decide +kernel

theorem test_meets_RegistrationCreatesTheRecord_uncovered : node.uncovered registered := noWindows _

/-- The node with circuit 0 owned by the TENANT on port 1, and a window that lists circuits 0 and 1. -/
def sharedNode : Device :=
  ((nodeRun .head .announcing none).dev.onCircuit 0 fun c => { c with owner := .port 1 }).putWindow 4
    (some (windowIn .opened [0, 1]))

theorem test_meets_StatusSeekAndReadAnswer_foreign : sharedNode.takes 1 = true ∧ sharedNode.role 1 = some .tenant ∧
    (sharedNode.recordAt 1 .circuits 0).map (·.1) = some 0 ∧ sharedNode.recordAt 1 .circuits 1 = some (2, []) ∧
    sharedNode.recordAt 1 .circuits 3 = some (1, []) ∧ (sharedNode.recordAt 1 .runs 0).map (·.1) = some 0 ∧
    (nodeRun .head .announcing none).dev.recordAt 1 .runs 0 = some (2, [0, 0]) ∧
    (sharedNode.newEntry 0 .verify .low).recordAt 1 .queue 0 =
      some (0, (sharedNode.newEntry 0 .verify .low).entryBytes ⟨0, .verify, .low, 1, 1000, none⟩) ∧
    (node.newEntry 0 .baseline .low).recordAt 1 .queue 0 = some (2, [1, 3]) ∧ node.recordAt 1 .queue 0 = none ∧
    (sharedNode.recordAt 1 .windows 4).map (fun x => x.2.drop 36) = some [0, 2, 0, 1, 0, 0, 0, 0, 0] ∧
    (sharedNode.recordAt 0 .windows 4).map (fun x => x.2.drop 36) = some [0, 2, 0, 2, 0, 1, 0, 0, 0, 0] := by
  decide +kernel

theorem test_meets_RegistrationIsJudgedInOrder : node.takesAny 0 = true ∧
    registerDesc (registering 0 1 3 20) = none ∧ registerDesc (registering (2 ^ 24 - 1) 15 16 96) ≠ none ∧
    (registerDesc (registering 200 2 3 20)).map Desc.agrees = some false ∧
    (node.circuit 1).map (·.cid) = some (fieldAt (registering 101 1 3 20) 0 3) ∧
    (registerDesc (registering 200 1 3 11)).map (node.conflicts none) = some true ∧
    (∀ i, (({ node with circuits := .all 256 (some (newCircuit 101 .line transit)) } : Device).circuit i).isSome) ∧
    (Device.findCid { node with circuits := .all 256 (some (newCircuit 101 .line transit)) } 200 = none) ∧
    Device.conflicts { node with circuits := .all 256 (some (newCircuit 101 .line transit)) } none registered = false := by
  decide +kernel

theorem test_meets_RegistrationIsJudgedInOrder_fields :
    registerDesc (be 3 9 ++ [2, 15, 16, 96, 3, 15, 20, 100, 1, 2]) = some
      ⟨.tail, 15, 16, 96, .degree 3, .tap 15, 20, 100, .escalate, .withdrawConfirm⟩ ∧
    registerDesc (be 3 9 ++ [0, 0, 2, 1, 15, 3, 255, 255, 255, 255]) = some
      ⟨.head, 0, 2, 1, .tap 15, .degree 3, 5, 15, .fail, .withdrawAuto⟩ ∧
    registerDesc (be 3 9 ++ [0, 0, 2, 1, 16, 3, 255, 255, 255, 255]) = none ∧
    registerDesc (be 3 9 ++ [0, 0, 2, 1, 15, 3, 21, 255, 255, 255]) = none ∧
    registerDesc (be 3 9 ++ [0, 0, 2, 1, 15, 3, 255, 101, 255, 255]) = none := by decide +kernel

theorem test_meets_CircuitIsNamedTwiceAndOwned : node.takesAny 1 = true ∧ node.named (naming 0 101 []) = none ∧
    node.named (naming 1 101 []) = some (newCircuit 101 .line transit) ∧ node.isLine 1 = false ∧
    ((node.onCircuit 1 fun c => { c with owner := .port 1 }).named (naming 1 101 [1])).map (·.owner) = some (.port 1) ∧
    byteAt (naming 1 101 [1]) 4 = 1 ∧ editLengthOk (naming 1 101 [0, 1, 6, 0, 9]) = true := by decide +kernel

/-- An EDIT-CIRCUIT body with one change, for circuit 0 at index 0. -/
def editing (flag field value : Nat) : List Byte := naming 0 100 [BitVec.ofNat 8 flag, 1, BitVec.ofNat 8 field] ++ be 2 value

theorem test_meets_EditIsAppliedOrStaged : node.takesAny 0 = true ∧ editLengthOk (editing 0 6 9) = true ∧
    node.named (editing 0 6 9) = some (newCircuit 100 .line head) ∧ node.mayAct 0 .line .owner = true ∧
    editList (naming 0 100 [0, 0]) = none ∧ editList (editing 0 6 9) = some [⟨.dwell, 9⟩] ∧
    head.overlay [⟨.dwell, 21⟩] = none ∧ head.overlay [⟨.dwell, 9⟩] = some { head with dwell := 9 } ∧
    (head.overlay [⟨.hop, 1⟩]).map Desc.agrees = some false ∧
    (head.overlay [⟨.channel, 11⟩]).map (node.conflicts (some 0)) = some true ∧
    (head.overlay [⟨.channel, 40⟩]).map (node.conflicts (some 0)) = some false ∧
    node.wellFormed { head with channel := 40 } = true ∧ isPathEdit [⟨.channel, 40⟩] = true ∧
    isPathEdit [⟨.dwell, 9⟩] = false ∧ (newCircuit 100 .line head).quiescent = true ∧
    ({ newCircuit 100 .line head with service := .due } : Circuit).quiescent = false ∧
    (nodeCircuit 0 fun c => { c with service := .due }).dev.takesAny 0 = true := by decide +kernel

/-- The node with an edit staged at circuit 0. -/
def stagedNode (service : Service) (changes : List Change) : Device :=
  (nodeCircuit 0 fun c => { c with service := service, staged := some ⟨false, changes⟩ }).dev

theorem test_meets_EditIsAppliedOrStaged_staged :
    ((stagedNode .due [⟨.dwell, 9⟩]).circuit 0).map (·.quiescent) = some false ∧
    ((stagedNode .unproven [⟨.dwell, 9⟩]).circuit 0).map (·.quiescent) = some true ∧
    (head.overlay [⟨.channel, 97⟩]) = none ∧ (head.overlay [⟨.hop, 1⟩]).map Desc.agrees = some false ∧
    ((stagedNode .unproven [⟨.channel, 11⟩]).judgeStaged 0).circuit 0 =
      some { newCircuit 100 .line head with lastEdit := .droppedConflict } ∧
    ((stagedNode .unproven [⟨.dwell, 9⟩]).judgeStaged 0).circuit 0 =
      some { newCircuit 100 .line { head with dwell := 9 } with lastEdit := .applied } ∧
    ((stagedNode .unproven [⟨.channel, 40⟩]).judgeStaged 0).circuit 0 =
      some { newCircuit 100 .line { head with channel := 40 } with lastEdit := .applied } := by decide +kernel

/-- An OPEN window that covers a record captures it when the calendar takes it, and one that lists it already does not. -/
theorem test_meets_EditIsAppliedOrStaged_covered : openNode.inScope (windowIn .opened []) transit = true ∧
    ((openNode.calendarTakes 1).windows.get 4).map (·.members) = some [1] ∧
    ((openNode.calendarTakes 1).circuit 1).map (·.service) = some .held ∧
    (openNode.putWindow 4 (some (windowIn .opened [1]))).calendarTakes 1 =
      openNode.putWindow 4 (some (windowIn .opened [1])) := by decide +kernel

theorem test_meets_DeletionRemovesTheRecordEverywhere : node.takesAny 0 = true ∧ node.runOf 1 = none ∧
    node.named (naming 1 101 []) = some (newCircuit 101 .line transit) ∧ node.mayAct 0 .line .owner = true ∧
    (nodeRun .transit .listening none).dev.takesAny 0 = true ∧
    (nodeRun .transit .listening none).dev.runOf 1 = some 0 ∧
    ((nodeRun .transit .listening none).dev.putWindow 4 (some (windowIn .overdue [1]))).windows.get 4 =
      some (windowIn .overdue [1]) ∧ (windowIn .overdue [1]).unresolved = [1] := by decide +kernel

theorem test_meets_PermitRequestAndConfirm : node.takesAny 0 = true ∧ node.mayAct 0 .line .owner = true ∧
    node.named (naming 0 100 [1]) = some (newCircuit 100 .line head) ∧ byteAt (naming 0 100 [1]) 4 = 1 ∧
    byteAt (naming 0 100 [0]) 4 = 0 ∧ byteAt (naming 0 100 [2]) 4 = 2 ∧
    ((nodeCircuit 0 fun c => { c with service := .awaitConfirm }).dev.named (naming 0 100 [])).map
      (fun c => (c.service, c.staged)) = some (.awaitConfirm, none) ∧
    ((stagedNode .awaitConfirm [⟨.dwell, 9⟩]).named (naming 0 100 [])).map (fun c => (c.service, c.staged)) =
      some (.awaitConfirm, some ⟨false, [⟨.dwell, 9⟩]⟩) ∧
    (stagedNode .awaitConfirm [⟨.dwell, 9⟩]).mayAct 0 .line .owner = true ∧
    (stagedNode .awaitConfirm [⟨.dwell, 9⟩]).takesAny 0 = true := by decide +kernel

theorem test_meets_VerifyAndBaselineAskForARun : node.takesAny 0 = true ∧ node.mayAct 0 .line .ownerOrLine = true ∧
    node.named (naming 0 100 [1]) = some (newCircuit 100 .line head) ∧ node.isLine 0 = true ∧
    node.queued 0 .verify = none ∧ node.nextArrival < 4294967295 ∧
    ({ node with nextArrival := 4294967295 } : Device).takesAny 0 = true ∧
    ({ node with nextArrival := 4294967295 } : Device).queued 0 .verify = none ∧
    ((nodeCircuit 1 fun c => { c with service := .held }).dev.circuit 1).map (·.service) = some .held ∧
    ((node.newEntry 0 .baseline .low).queued 0 .baseline).isSome = true ∧
    (newCircuit 101 .line transit).desc.role ≠ .head := by decide +kernel

theorem test_meets_BaselineCommandsMoveAndRemove : node.takesAny 0 = true ∧
    node.named (naming 1 101 []) = some (newCircuit 101 .line transit) ∧ (naming 1 101 []).length = 4 ∧
    node.mayAct 0 .line .ownerOrLine = true ∧ (newCircuit 101 .line transit).candidate = none ∧
    ((nodeCircuit 1 fun c => { c with candidate := some ⟨-100, -120, ⟨5, 0, 0⟩, 900, aRun⟩ }).dev.named
      (naming 1 101 [])).map (·.candidate.isSome) = some true := by decide +kernel

theorem test_meets_VerdictMovesTheServiceState : (newCircuit 101 .line transit).service ≠ .held := by decide

/-! Windows and the clock. -/

/-- A SCHEDULE-WINDOW body: open day 5 minute `o`, close day 5 minute `c`, lead, limit, degree 0. -/
def scheduling (o c lead limit : Nat) : List Byte :=
  be 2 5 ++ be 2 o ++ be 2 5 ++ be 2 c ++ be 1 lead ++ be 1 limit ++ [1, 0, 0]

theorem test_meets_ScheduleWindowTakesTheLowestEmptySlot : node.takesLine 0 = true ∧
    (scheduling 30 61 60 240).length = 13 ∧ node.clock.unset = false ∧ node.clock.time.minute = 60 ∧
    fieldAt (scheduling 30 61 60 240) 6 2 = 61 ∧ byteAt (scheduling 30 61 60 240) 8 = 60 ∧
    byteAt (scheduling 30 61 60 240) 9 = 240 ∧ fieldAt (scheduling 30 60 61 4) 6 2 = 60 ∧
    node.windows.get 0 = none ∧ ({ node with clock := Clock.powerOn } : Device).clock.unset = true ∧
    ({ node with clock := Clock.powerOn } : Device).takesLine 0 = true ∧
    ({ node with windows := .all 16 (some (windowIn .done [])) } : Device).windows.firstFree = none := by decide +kernel

theorem test_meets_WindowIsExtendedClosedOrWithdrawn : node.takesLine 0 = true ∧ byteAt [16] 0 = 16 ∧
    byteAt [15] 0 = (15 : Fin 16).val ∧ node.windows.get 15 = none ∧
    openNode.takesLine 0 = true ∧ openNode.windows.get 4 = some (windowIn .opened []) ∧
    (windowIn .opened []).closeAt.minute < fieldAt ([4] ++ be 2 5 ++ be 2 91) 3 2 ∧
    ¬(windowIn .opened []).closeAt.minute < fieldAt ([4] ++ be 2 5 ++ be 2 90) 3 2 ∧ openNode.clock.held = false ∧
    ({ openNode with clock := openNode.clock.hold 1000 } : Device).clock.held = true ∧
    ({ openNode with clock := openNode.clock.hold 1000 } : Device).takesLine 0 = true ∧
    (windowIn .done []).state ≠ .opened ∧ (windowIn .done []).state ≠ .verifying ∧
    (node.putWindow 4 (some (windowIn .done []))).takesLine 0 = true := by decide +kernel

/-- The node with a window over degree 0 in slot 4 and the wall time day 5 with the minute given. -/
def windowed (state : WindowState) (members : List (Fin 256)) (minute : Nat) : Device :=
  { node.putWindow 4 (some (windowIn state members)) with clock := { node.clock with time := ⟨5, minute, 0⟩ } }

theorem test_meets_WindowIsWalkedForward : (windowed .scheduled [] 20).windows.get 4 = some (windowIn .scheduled []) ∧
    0 < (windowIn .scheduled []).verifyLimit ∧ (windowIn .scheduled []).openAt.number = 5 * 1440 + 30 ∧
    (windowIn .scheduled []).closeAt.number = 5 * 1440 + 90 ∧ (windowIn .scheduled []).lead = 10 ∧
    (windowed .scheduled [] 30).scopeOf (windowIn .scheduled []) = [1, 2] ∧
    ((windowed .scheduled [] 29).walkWindow 4).windows.get 4 = some { windowIn .scheduled [] with
      state := .baselining, baseliningSince := some ⟨⟨5, 29, 0⟩, 1000⟩, baselineSet := [1, 2] } ∧
    (windowIn .verifying [1]).unresolved ≠ [] ∧
    ((windowed .opened [1, 2] 90).walkWindow 4).windows.get 4 = some { windowIn .opened [1, 2] with
      state := .verifying, verifyingSince := some ⟨5, 90, 0⟩, unresolved := [1, 2] } ∧
    (((node.onCircuit 1 fun c => { c with candidate := some ⟨-100, -120, ⟨5, 0, 0⟩, 900, aRun⟩ }).circuit 1).map
      (·.candidate.isSome)) = some true := by decide +kernel

/-- A window whose open time has come: BASELINING with a candidate to commit, without a lead, and past its close too. -/
theorem test_meets_WindowIsWalkedForward_opens :
    ((windowed .scheduled [] 19).walkWindow 4) = windowed .scheduled [] 19 ∧
    (((windowed .scheduled [] 30).walkWindow 4).windows.get 4).map (fun y => (y.state, y.baselineSet, y.members)) =
      some (.opened, [1, 2], [1, 2]) ∧
    (((windowed .scheduled [] 90).walkWindow 4).windows.get 4).map
      (fun y => (y.state, y.unresolved, y.verifyingSince)) = some (.verifying, [1, 2], some ⟨5, 90, 0⟩) ∧
    ((((windowed .baselining [] 30).putWindow 4 (some { windowIn .baselining [] with
        baseliningSince := some ⟨⟨5, 20, 0⟩, 800⟩, baselineSet := [1, 2] })).onCircuit 1 fun c =>
          { c with candidate := some ⟨-100, -120, ⟨5, 0, 0⟩, 900, aRun⟩ }).walkWindow 4).circuit 1 =
      some { newCircuit 101 .line transit with committed := some ⟨-100, -120, ⟨5, 0, 0⟩⟩ } ∧
    (((windowed .scheduled [] 30).evaluate.circuit 1).map (·.service)) = some .held ∧
    (((windowed .opened [1] 90).evaluate.circuit 1).map (·.service)) = some .due := by decide +kernel

theorem test_meets_HoldChangeMovesTheRecord : node.circuit 1 = some (newCircuit 101 .line transit) ∧
    (HoldChange.mk [4] [] [4]).before = [] ∧ (HoldChange.mk [] [4] []).before = [4] ∧
    (HoldChange.mk [4] [4] []).before = [] ∧ (HoldChange.mk [] [] [4]).before = [4] ∧ node.runOf 1 = none ∧
    (newCircuit 101 .line transit).service ≠ .held ∧ (newCircuit 101 .line transit).service ≠ .due ∧
    ((nodeCircuit 0 fun c => { c with service := .held }).dev.circuit 0).map (·.service) = some .held ∧
    (nodeRun .transit .listening none).dev.runOf 1 = some 0 := by decide +kernel

theorem test_meets_ClockIsHeldSetAlignedAndReleased : node.takesLine 0 = true ∧ node.clock.held = false ∧
    ({ node with clock := node.clock.hold 1000 } : Device).takesLine 0 = true ∧
    ({ node with clock := node.clock.hold 1000 } : Device).clock.held = true ∧
    ({ node with clock := node.clock.hold 1000 } : Device).clock.holdDeadline = some 11000 ∧
    fieldAt (be 2 9 ++ be 2 2047 ++ [59]) 2 2 = 2047 ∧ byteAt (be 2 9 ++ be 2 2047 ++ [59]) 4 = 59 ∧
    fieldAt (be 2 9 ++ be 2 2048 ++ [60]) 2 2 = 2048 ∧ byteAt (be 2 9 ++ be 2 2048 ++ [60]) 4 = 60 := by decide +kernel

theorem test_meets_TicksComeFromDividerOrPps : node.clock.source = .internal ∧ node.rst = false ∧ node.ppsIn = false ∧
    ({ node with lineIn := node.lineIn.set 0 true } : Device).ppsIn = true ∧ node.freezeIn = false ∧
    (node.clock.edge 1000).source = .pps ∧ (node.clock.edge 1000).ppsDeadline = some 3000 := by decide +kernel

/-- At 59 seconds a tick carries: minute 1438 to 1439, minute 1439 and any above to the next day, the last day to 0. -/
theorem test_tick_boundaries : WallTime.tick ⟨5, 1438, 59⟩ = ⟨5, 1439, 0⟩ ∧ WallTime.tick ⟨5, 1439, 59⟩ = ⟨6, 0, 0⟩ ∧
    WallTime.tick ⟨65535, 2047, 59⟩ = ⟨0, 0, 0⟩ ∧ WallTime.tick ⟨5, 60, 58⟩ = ⟨5, 60, 59⟩ ∧
    WallTime.align ⟨5, 60, 29⟩ = ⟨5, 60, 0⟩ ∧ WallTime.align ⟨5, 60, 30⟩ = ⟨5, 61, 0⟩ := by decide

/-! Taps, configuration and the Arbiter. -/

/-- A SET-TAP body for a tap: function, degree, limits −300 and 0, trim. -/
def setting (t fn degree trim : Nat) : List Byte := be 1 t ++ be 1 fn ++ be 1 degree ++ beInt 2 (-300) ++ be 2 0 ++ be 1 trim

theorem test_meets_SetTapIsJudgedAndWritten : node.takesLine 0 = true ∧ (setting 15 1 255 7).length = 8 ∧
    byteAt (setting 15 1 255 7) 0 = (15 : Fin 16).val ∧ byteAt (setting 16 1 255 0) 0 = 16 ∧
    tapSettingsAt (setting 15 1 255 7) 1 = some ⟨.add, none, -300, 0, 7⟩ ∧ tapSettingsAt (setting 15 1 0 0) 1 = none ∧
    tapSettingsAt (setting 15 3 3 0) 1 = some ⟨.lineIn, some 3, -300, 0, 0⟩ ∧
    tapSettingsAt (setting 8 1 255 8) 1 = none ∧
    node.references transit 8 = true ∧ (node.tapSettings 8).fn = .lineIn ∧
    ((nodeRun .transit .listening none).dev.claim 0 101 transit).tapListening 4 = true ∧
    node.lineTapTaken 15 ⟨.lineIn, some 0, -300, 0, 0⟩ = true ∧
    node.lineTapTaken 15 ⟨.lineIn, some 3, -300, 0, 0⟩ = false ∧
    (∀ i, ((node.circuit i).all fun c => !node.references c.desc 15) = true) ∧
    (∀ j, (node.taps.get 15).slots.get j = none) := by decide +kernel

/-- The image of the small node. -/
def image : Image := ⟨settings, node.taps.mapIdx fun _ t => t.settings⟩

/-- The part as the load finds it. -/
def loadingPart : Device := State.reset.dev

theorem test_meets_ImageIsAppliedWholeOrNotAtAll : loadingPart.takes 0 = true ∧ loadingPart.configured = false ∧
    loadingPart.loading = true ∧ loadingPart.eeprom = .fromOutside ∧ loadingPart.rst = false ∧
    parseImage (imageBytes image) = some image ∧ (imageBytes image).length = 164 ∧
    parseImage (List.replicate 164 0) = none ∧ image.settings.roles.get 3 = .off ∧ node.configured = true ∧
    node.loading = false ∧ node.takes 1 = true := by decide +kernel

/-- A port that an image makes OFF takes its notify mode and mask and is otherwise as a reset leaves it. -/
theorem test_off_port_takes_its_notify_defaults : PortCtx.configured .off ⟨.pulse, 5⟩
    { PortCtx.reset with table := .taps, index := 9, dropped := true } =
      { PortCtx.reset with mode := .pulse, mask := 5 } := by decide

theorem test_meets_StoreKeepsTheRunningImage : node.takesLine 0 = true ∧ node.storing = none ∧
    node.running = some settings ∧ ({ node with storing := some ⟨2, []⟩ } : Device).takesLine 0 = true ∧
    fieldAt (be 2 65534) 0 2 = 65534 ∧ fieldAt (be 2 65535) 0 2 = 65535 ∧ fieldAt (be 2 1) 0 2 = 1 ∧ node.rst = false :=
  by decide +kernel

theorem test_meets_ResetsClearEveryBlock : node.takesLine 0 = true ∧ node.rst = false ∧
    ({ node with rst := true } : Device).rst = true := by decide +kernel

/-- The node with a reading of −25 dBm on every tap. -/
def readNode : Device := node.tapReadings (.all 16 (-250))

theorem test_meets_ReadingsFormLevelsAndClasses : readNode.rst = false ∧ ((readNode.taps.get 8).reading = some (-250)) ∧
    (readNode.taps.get 8).settings.fn = .lineIn ∧ (readNode.taps.get 8).lightClass = .normal ∧
    ((readNode.taps.get 8).take (-400)).lightClass = .under ∧ ((readNode.taps.get 8).take (-401)).lightClass = .dark ∧
    ((readNode.taps.get 8).take 0).lightClass = .normal ∧ ((readNode.taps.get 8).take 1).lightClass = .over ∧
    ((readNode.taps.get 8).take (-300)).lightClass = .normal ∧ ((readNode.taps.get 8).take (-301)).lightClass = .under ∧
    (node.taps.get 8).reading = none := by decide +kernel

/-- A listen slot for circuit 101 on channel 11 with the counts given. -/
def slotWith (good bad : Nat) : ListenSlot := { ListenSlot.fresh 0 101 11 .ingress with good, bad }

theorem test_meets_CodeFramesAreCountedAndJudged : node.rst = false ∧
    codeFrameGood (codeFrame 101) = true ∧ (codeFrameId (codeFrame 101)).toNat = (slotWith 0 0).cid ∧
    (codeFrameId (codeFrame 102)).toNat ≠ (slotWith 0 0).cid ∧ codeFrameGood (codeFrame 101 ^^^ 1) = false ∧
    (slotWith 3 0).sighting = .seen ∧ (slotWith 2 9).sighting = .garbled ∧ (slotWith 1 0).sighting = .garbled ∧
    (slotWith 0 1).sighting = .garbled ∧ (slotWith 0 0).sighting = .notSeen ∧
    ((slotWith 255 0).offer 11 (codeFrame 101) (-100)).good = 255 := by decide +kernel

/-- The node with an entry for circuit 0 that may be granted from instant 2000 on. -/
def queuedNode (cls : QClass) : Device :=
  { node with queue := [⟨0, .verify, cls, 1, 500, some 2000⟩] }

theorem test_meets_ArbiterJudgesAtItsEvents : node.rst = false ∧ node.queued 0 .verify = none ∧
    (queuedNode .urgent).queued 0 .verify = some ⟨0, .verify, .urgent, 1, 500, some 2000⟩ ∧
    (queuedNode .low).queued 0 .verify = some ⟨0, .verify, .low, 1, 500, some 2000⟩ ∧
    ({ node with lineIn := node.lineIn.set 1 true } : Device).freezeIn = true ∧ node.freezeIn = false ∧
    node.ppsIn = false := by decide +kernel

/-- The node with two entries of one class, the older one for circuit 0. -/
def busyNode : Device := (node.newEntry 0 .verify .low).newEntry 0 .baseline .low

theorem test_meets_ArbiterChoosesTheBestAndGoesOn : busyNode.best = some ⟨0, .verify, .low, 1, 1000, none⟩ ∧
    busyNode.canGrant = true ∧ (∀ x ∈ busyNode.queue, x.cls ≠ .urgent) ∧ node.canGrant = false ∧
    node.canPreempt = false ∧ (busyNode.grant).victim.isSome = true ∧ (busyNode.grant).canGrant = false := by
  decide +kernel

theorem test_meets_GrantOpensAndPreemptionPutsBack :
    busyNode.promote.best = some ⟨0, .verify, .low, 1, 1000, none⟩ ∧ busyNode.promote.freeInjector = some 0 ∧
    busyNode.promote.runs.firstFree = some 0 ∧ busyNode.promote.circuit 0 = some (newCircuit 100 .line head) ∧
    head.egress = .degree 1 ∧ (busyNode.promote.links.get 1).state = .up ∧
    (busyNode.grant).victim = some ⟨0, 0, 0, .verify, .low, 1, 1000, 1000⟩ ∧
    (((busyNode.grant).runs.get 0).map fun r => (r.circuit, r.kind)) = some (0, .verify) ∧
    (((busyNode.grant).circuit 0).map (·.desc.role)) = some .head ∧ (busyNode.grant).queued 0 .verify = none ∧
    (((busyNode.grant).newEntry 0 .verify .low).queued 0 .verify).isSome = true ∧
    ((busyNode.grant).newEntry 0 .verify .low).victim = (busyNode.grant).victim ∧
    ((busyNode.grant).runs.get 0).map (·.listen) = some .opened ∧
    ((busyNode.link 1 Link.goDown).promote.links.get 1).state ≠ .up ∧
    (busyNode.link 1 Link.goDown).promote.best = busyNode.promote.best := by decide +kernel

/-- A HEAD listens on its ADD tap, on the LINE-OUT tap of its degree and, to watch, on every other LINE-OUT and DROP
tap. -/
theorem test_meets_GrantOpensAndPreemptionPutsBack_listens : node.canListen head = true ∧
    (fun t => ((node.claim 3 100 head).taps.get t).slots.get 0) = (fun t =>
      if t = 0 then some (ListenSlot.fresh 3 100 10 .ingress)
      else if t = 11 then some (ListenSlot.fresh 3 100 10 .expectedEgress)
      else if t = 4 ∨ t = 9 then some (ListenSlot.fresh 3 100 10 .watch) else none) ∧
    ((node.claim 3 100 head).releaseSlots 3).taps = node.taps := by decide +kernel

/-! Probe runs. -/

theorem test_meets_AnnounceIsRefusedInOrder : node.linkTakes 0 = true ∧
    (Message.announce 101 aRun .verify 1 3 20).wf = true ∧ (Message.announce 101 aRun .verify 1 3 0).wf = true ∧
    node.findCid 999 = none ∧ node.findCid 101 = some 1 ∧ node.circuit 1 = some (newCircuit 101 .line transit) ∧
    ((nodeCircuit 1 fun c => { c with service := .held }).dev.circuit 1).map (·.service) = some .held ∧
    (nodeCircuit 1 fun c => { c with service := .held }).dev.linkTakes 0 = true ∧
    ({ node with runs := .all 32 (some (runOn .tail .listening none)) } : Device).runs.firstFree = none ∧
    (node.withoutRun 1).runs.firstFree = some 0 ∧ (node.withoutRun 1).canListen transit = true ∧
    ((node.link 1 fun l => l.goDown).links.get 1).state = .down ∧ (node.link 1 fun l => l.goDown).linkTakes 0 = true := by
  decide +kernel

theorem test_meets_AnnounceIsAccepted : node.linkTakes 0 = true ∧
    (Message.announce 101 aRun .verify 1 3 5).wf = true ∧ (Message.announce 102 aRun .verify 2 3 5).wf = true ∧
    (newCircuit 101 .line transit).fits 0 1 3 5 = true ∧ (newCircuit 102 .line tail).fits 0 2 3 5 = true ∧
    node.findCid 102 = some 2 ∧ ((node.heard 0).withoutRun 1).runs.firstFree = some 0 ∧
    ((node.heard 0).withoutRun 1).canListen transit = true ∧ ((node.heard 0).withoutRun 2).canListen tail = true ∧
    (node.links.get 1).state = .up ∧ (nodeRun .transit .listening none).dev.runOf 1 = some 0 := by decide +kernel

theorem test_meets_ArmedMovesTheRun : (nodeRun .transit .arming none).dev.linkTakes 1 = true ∧
    (Message.armed 101 aRun).wf = true ∧ (nodeRun .transit .arming none).dev.findRun 101 aRun = some 0 ∧
    (nodeRun .transit .arming none).dev.runs.get 0 = some (runOn .transit .arming none) ∧
    (runOn .transit .arming none).down = some 1 ∧ (nodeRun .head .announcing none).dev.findRun 100 aRun = some 0 ∧
    (Message.armed 100 aRun).wf = true ∧ codeFrameGood (codeFrame 100) = true ∧
    ((nodeRun .head .announcing none).dev.circuit 0).map (·.desc.ingress) = some (.tap 0) ∧
    (runOn .transit .listening none).phase ≠ .arming := by decide +kernel

theorem test_meets_ListenClosesAtStopAndAtTheEndOfTheDwell :
    (nodeRun .transit .listening none).dev.linkTakes 0 = true ∧ (Message.stop 101 aRun).wf = true ∧
    (nodeRun .transit .listening none).dev.findRun 101 aRun = some 0 ∧ (runOn .transit .listening none).up = some 0 ∧
    (nodeRun .tail .listening none).dev.findRun 102 aRun = some 0 ∧ (runOn .transit .arming none).phase ≠ .listening ∧
    ((nodeRun .transit .listening none).dev.circuit 1).isSome = true ∧
    (nodeRun .head .injecting none).dev.rst = false ∧
    (nodeRun .head .injecting none).dev.runs.get 0 = some (runOn .head .injecting none) ∧
    ((nodeRun .head .injecting none).dev.circuit 0).isSome = true := by decide +kernel

theorem test_meets_TransitReports :
    (nodeRun .transit .reporting (some (aHop 1 .throughOk))).dev.findRun 101 aRun = some 0 ∧
    (runOn .transit .reporting (some (aHop 1 .throughOk))).own = some (aHop 1 .throughOk) ∧
    (nodeRun .transit .reporting (some (aHop 1 .throughOk))).dev.linkTakes 1 = true ∧
    (Message.report 101 aRun false [aHop 2 .throughOk]).wf = true ∧ reportFits 1 3 [aHop 2 .throughOk] = true ∧
    reportFits 1 3 [aHop 3 .throughOk] = false ∧ reportFits 1 3 [aHop 2 .throughOk, aHop 3 .throughOk] = false ∧
    (nodeRun .transit .reporting (some (aHop 1 .throughOk))).dev.rst = false := by decide +kernel

theorem test_meets_RunsEndOnReportsAndWaits :
    (nodeRun .head .collecting (some (aHop 0 .throughOk))).dev.findRun 100 aRun = some 0 ∧
    (nodeRun .head .collecting (some (aHop 0 .throughOk))).dev.linkTakes 1 = true ∧
    (Message.report 100 aRun false [aHop 1 .throughOk, aHop 2 .throughOk]).wf = true ∧
    reportFits 0 3 [aHop 1 .throughOk, aHop 2 .throughOk] = true ∧
    (runOn .head .collecting (some (aHop 0 .throughOk))).down = some 1 ∧
    (nodeRun .head .announcing none).dev.rst = false ∧ (nodeRun .head .announcing none).dev.findRun 100 aRun = some 0 ∧
    (nodeRun .transit .arming none).dev.findRun 101 aRun = some 0 := by decide +kernel

/-- The grant record of the head run in slot 0. -/
def aGrant : GrantRecord := ⟨0, 0, 0, .verify, .low, 1, 500, 900⟩

theorem test_meets_HeadRunEndsWithAnOutcome :
    (nodeRun .head .collecting (some (aHop 0 .throughOk))).dev.runs.get 0 =
      some (runOn .head .collecting (some (aHop 0 .throughOk))) ∧
    ((nodeRun .head .collecting (some (aHop 0 .throughOk))).dev.circuit 0).map
      (fun c => (c.desc.role, c.run)) = some (.head, some ⟨aRun, .verify⟩) ∧
    ({ (nodeRun .head .announcing none).dev with grants := [aGrant] } : Device).grantOf 0 = some aGrant ∧
    aGrant.circuit = (runOn .head .announcing none).circuit ∧ aGrant.kind = (runOn .head .announcing none).kind ∧
    (nodeRun .head .announcing none).dev.queued 0 .verify = none := by decide +kernel

theorem test_meets_RefuseEndsOrIsPassedUp : (Message.refuse 101 aRun 2 .held).wf = true ∧
    (nodeRun .head .announcing none).dev.linkTakes 1 = true ∧
    (nodeRun .head .announcing none).dev.findRun 100 aRun = some 0 ∧
    (nodeRun .transit .awaitingOutcome (some (aHop 1 .throughOk))).dev.findRun 101 aRun = some 0 ∧
    (nodeRun .transit .arming none).dev.findRun 101 aRun = some 0 ∧
    (runOn .transit .arming none).phase ≠ .awaitingOutcome := by decide +kernel

theorem test_meets_OutcomeIsAppliedAndPassedDown :
    (nodeRun .transit .awaitingOutcome (some (aHop 1 .throughOk))).dev.linkTakes 0 = true ∧ anOutcome.wf = true ∧
    (nodeRun .transit .awaitingOutcome (some (aHop 1 .throughOk))).dev.findRun anOutcome.cid anOutcome.run = some 0 ∧
    ((nodeRun .transit .awaitingOutcome (some (aHop 1 .throughOk))).dev.circuit 1).map
      (fun c => (c.run, c.desc.role)) = some (some ⟨aRun, .verify⟩, .transit) ∧
    (nodeRun .transit .awaitingOutcome (some (aHop 1 .throughOk))).dev.linkTakes 1 = true ∧
    (runOn .transit .awaitingOutcome (some (aHop 1 .throughOk))).up ≠ some 1 ∧
    anOutcome.verdict ≠ .noVerdict ∧ node.findRun anOutcome.cid anOutcome.run = none ∧ node.findCid anOutcome.cid = some 1 ∧
    transit.ingress = .degree 0 ∧ node.findCid 999 = none ∧ tail.role ≠ .transit := by decide +kernel

/-- R20: an edit staged behind a run is applied in the event that frees the run. -/
theorem test_staged_edit_is_judged_when_its_run_is_freed :
    (after (.cancel 0 101 aRun) (nodeState.put ((nodeRun .transit .listening none).dev.onCircuit 1 fun c =>
      { c with staged := some ⟨false, [⟨.dwell, 9⟩]⟩ }))).map (fun t => t.dev.circuit 1) =
    some (some { newCircuit 101 .line { transit with dwell := 9 } with lastEdit := .applied }) := by decide +kernel

theorem test_meets_RunIsFreedQuietly : (nodeRun .transit .listening none).dev.findRun 101 aRun = some 0 ∧
    (nodeRun .transit .listening none).dev.linkTakes 0 = true ∧ (Message.cancel 101 aRun).wf = true ∧
    ((nodeRun .transit .listening none).dev.circuit 1).map (fun c => (c.desc.role, c.service)) =
      some (.transit, .unproven) ∧
    (nodeRun .transit .listening none).dev.rst = false ∧
    (nodeRun .tail .awaitingOutcome (some (aHop 2 .throughOk))).dev.findRun 102 aRun = some 0 ∧
    (nodeRun .transit .listening none).dev.findRun 101 ⟨3, 10⟩ = none ∧ (Message.cancel 101 ⟨3, 10⟩).wf = true := by
  decide +kernel

/-- The node with circuit 1 DUE after a number of REQUESTs. -/
def dueState (attempts : Nat) : State :=
  nodeCircuit 1 fun c => { c with service := .due, attempts, requestDeadline := some 121000 }

theorem test_meets_RequestsReachTheHeadOrGoSilent : node.linkTakes 1 = true ∧ (Message.request 101 .verify).wf = true ∧
    node.findCid 100 = some 0 ∧ head.egress = .degree 1 ∧ transit.egress = .degree 1 ∧ tail.egress ≠ .degree 1 ∧
    ((dueState 2).dev.circuit 1).map (fun c => (c.requestDeadline, c.attempts)) = some (some 121000, 2) ∧
    ((dueState 3).dev.circuit 1).map (fun c => (c.service, c.attempts)) = some (.due, 3) ∧ node.findCid 999 = none ∧
    (Message.request 999 .verify).wf = true ∧
    (dueState 3).dev.rst = false := by decide +kernel

/-- A slot of run 0 that saw the good and bad frames given, the good ones at −10.0 dBm. -/
def heardSlot (purpose : Purpose) (good bad : Nat) : Table (Option ListenSlot) 8 :=
  (Table.all 8 none).set 0 (some ⟨0, 101, 11, purpose, good, bad, -100 * good, good⟩)

def withSlots (d : Device) (t : Fin 16) (slots : Table (Option ListenSlot) 8) : Device :=
  { d with taps := d.taps.set t { (d.taps.get t) with slots := slots } }

/-- The node at the close of a listen on taps 8 (ingress), 11 (egress) and 9 (watch). -/
def closing (good bad watched : Nat) : Device :=
  withSlots (withSlots (withSlots node 8 (heardSlot .ingress good bad)) 11 (heardSlot .expectedEgress 3 0)) 9
    (heardSlot .watch watched 0)

/-- The transit record with a baseline that the ingress level of `closing` differs from by `off`. -/
def against (off : Int) : Circuit :=
  { newCircuit 101 .line transit with committed := some ⟨-100 + off, -100, ⟨5, 0, 0⟩⟩ }

theorem test_meets_HopVerdictFollowsTheSightings :
    (((closing 3 0 0).taps.get 8).slotOf 0).map (·.purpose) = some .ingress ∧
    (((closing 3 0 0).taps.get 11).slotOf 0).map (·.purpose) = some .expectedEgress ∧
    ((closing 2 9 0).formHop 0 .verify (against 0)).verdict = .inMissing ∧
    ((closing 3 0 3).formHop 0 .verify (against 0)).stray = some 9 ∧
    ((closing 3 0 3).formHop 0 .verify (against 0)).verdict = .misrouted ∧
    ((closing 3 0 2).formHop 0 .verify (against 15)).verdict = .throughOk ∧
    ((closing 3 0 2).formHop 0 .verify (against (-15))).verdict = .throughOk ∧
    ((closing 3 0 2).formHop 0 .verify (against 16)).verdict = .throughDegraded ∧
    ((closing 3 0 2).formHop 0 .baseline (against 16)).verdict = .throughNoBaseline := by decide +kernel

theorem test_meets_HeadClassifiesAndGivesTheVerdict :
    (∀ y ∈ [aHop 0 .throughOk, aHop 1 .throughNoBaseline], isThrough y.verdict = true) ∧
    (aHop 2 .inMissing).verdict = .inMissing ∧ ({ aHop 2 .misrouted with stray := some 4 } : HopResult).stray = some 4 ∧
    (∀ y ∈ [aHop 0 .throughOk, aHop 1 .throughNoBaseline], y.verdict ≠ .throughDegraded) ∧
    ([aHop 0 .throughOk] ++ aHop 1 .throughDegraded :: [aHop 2 .throughDegraded]).length = 3 := by decide

/-! Links. -/

theorem test_meets_HelloMovesTheLink : node.rst = false ∧ (node.links.get 1).state = .up ∧ node.expected 1 = 12 ∧
    node.expected 2 = 0 ∧ node.nodeId = 7 ∧ ((node.link 2 Link.goDown).links.get 2).state = .down ∧
    ((node.link 2 fun l => l.probe 1000).links.get 2).agreeing = 1 ∧
    ((node.link 2 fun l => { l.probe 1000 with agreeing := 2 }).links.get 2).agreeing = 2 ∧
    ((node.link 2 fun l => l.miswire 1000).links.get 2).state = .miswired ∧
    ((node.link 2 fun _ => Link.reset).links.get 2).state = .disabled := by decide +kernel

/-- The node with frames waiting on link 1. -/
def waiting (n : Nat) : Device := node.link 1 fun l => { l with queue := List.replicate n (.armed 101 aRun) }

theorem test_meets_LinksSendAndFallSilent : (node.links.get 1).state = .up ∧ (node.links.get 1).silence = some 2000 ∧
    ((waiting 15).links.get 1).queue.length = 15 ∧ ((waiting 16).links.get 1).queue.length = 16 ∧
    ((waiting 1).links.get 1).queue = [.armed 101 aRun] ∧ (node.links.get 1).queue = [] ∧
    ((node.link 1 Link.goDown).links.get 1).state ≠ .up ∧ node.rst = false := by decide +kernel

theorem test_meets_LinkLossActsOnTheRunsThatUseIt : (∀ q, node.runs.get q = none) ∧
    (nodeRun .transit .reporting (some (aHop 1 .throughOk))).dev.runs.get 0 =
      some (runOn .transit .reporting (some (aHop 1 .throughOk))) ∧
    ((nodeRun .transit .reporting (some (aHop 1 .throughOk))).dev.circuit 1).isSome = true ∧
    (∀ q, q ≠ 0 → (nodeRun .transit .reporting (some (aHop 1 .throughOk))).dev.runs.get q = none) ∧
    (runOn .transit .reporting (some (aHop 1 .throughOk))).down = some 1 ∧ (runOn .head .announcing none).up = none := by
  decide +kernel

theorem test_meets_FramesAreTakenForWhatTheyAre : node.rst = false ∧ validFrame [0x01, 0x03] = none ∧
    (validFrame ((wireBytes (.hello 12 0)).drop 1)).isSome = true ∧
    validFrame (be 1 0x30 ++ be 1 0 ++ be 2 (crc16 [0x30, 0x00]).toNat) = some (0x30, []) ∧
    parseFrame 0x30 [] = none ∧ (validFrame ((wireBytes (.message (.armed 101 aRun))).drop 1)).bind
      (fun f => parseFrame f.1 f.2) = some (.message (.armed 101 aRun)) := by decide +kernel

theorem test_meets_FramesSurviveTheLink : (Message.report (2 ^ 24 - 1) ⟨65535, 65535⟩ true
      (List.replicate 16 { aHop 15 .misrouted with inLevel := some (-32767), outLevel := none, stray := some 15 })).wf =
        true ∧
    (validFrame ((wireBytes (.message (.report (2 ^ 24 - 1) ⟨65535, 65535⟩ true
      (List.replicate 16 { aHop 15 .misrouted with inLevel := some (-32767), outLevel := none, stray := some 15 })))).drop
        1)).bind (fun f => parseFrame f.1 f.2) = some (.message (.report (2 ^ 24 - 1) ⟨65535, 65535⟩ true
      (List.replicate 16 { aHop 15 .misrouted with inLevel := some (-32767), outLevel := none, stray := some 15 }))) := by
  decide +kernel

/-! What every step keeps. -/

theorem test_meets_CircuitsStayApart : ∀ i j, (i ≠ j → ((node.circuit i).all fun a => (node.circuit j).all fun b =>
    a.cid != b.cid && !(a.desc.channel == b.desc.channel &&
      (a.desc.egress == b.desc.egress || a.desc.ingress == b.desc.ingress))) = true) := by
  have small : ∀ i : Fin 256, 3 ≤ i.val → node.circuit i = none := by decide +kernel
  have three : ∀ i j : Fin 3, (i ≠ j → ((node.circuit (i.castLE (by decide))).all fun a =>
      (node.circuit (j.castLE (by decide))).all fun b => a.cid != b.cid && !(a.desc.channel == b.desc.channel &&
        (a.desc.egress == b.desc.egress || a.desc.ingress == b.desc.ingress))) = true) := by decide +kernel
  intro i j h
  by_cases hi : 3 ≤ i.val
  · simp [small i hi]
  by_cases hj : 3 ≤ j.val
  · simp [small j hj]
  exact three ⟨i.val, by omega⟩ ⟨j.val, by omega⟩ fun e => h (Fin.ext (by simpa using congrArg Fin.val e))

theorem test_meets_QueueEntriesStayApart : busyNode.entriesApart := by
  simp [Device.entriesApart, busyNode, Device.newEntry, Device.moveCounter, node]
  decide

theorem test_meets_LinksStaySound : (∀ g, (node.links.get g).silence.isSome = (node.links.get g).state.hears ∧
    (node.links.get g).queue = [] ∧ (node.links.get g).agreeing ≤ 3) ∧ node.running ≠ none ∧ node.loading = false ∧
    node.rst = false := by decide +kernel

theorem test_meets_ClockStaysSound : (node.clock.hold 1000).sound := by
  refine ⟨?_, ?_, ?_⟩ <;> decide +kernel

end Sys2Proof.Tests
end

/-! SUPPORT. The records stay apart: what keeps every circuit id and description, and what an edit may write. -/

namespace Sys2Proof.Machine

/-! ### Two records apart (R9, R10) -/

/-- R9: two descriptions stand on one channel with the same egress or the same ingress. -/
def Desc.clashes (a b : Desc) : Prop := a.channel = b.channel ∧ (a.egress = b.egress ∨ a.ingress = b.ingress)

theorem Desc.clashes_symm {a b : Desc} : a.clashes b → b.clashes a :=
  fun ⟨channel, places⟩ => ⟨channel.symm, places.imp Eq.symm Eq.symm⟩

/-- R9: the judgement of a channel finds no record but the one left out that the description clashes with. -/
theorem conflicts_eq_false {d : Device} {o : Option (Fin 256)} {x : Desc} : d.conflicts o x = false ↔
    ∀ j b, some j ≠ o → d.circuit j = some b → ¬b.desc.clashes x := by
  simp only [Device.conflicts, List.any_eq_false, List.mem_finRange, true_imp_iff, Desc.clashes]
  refine forall_congr' fun j => ?_
  cases d.circuit j <;> simp

/-- R1: no record has a circuit id exactly where none is found. -/
theorem findCid_eq_none {d : Device} {cid : Nat} :
    d.findCid cid = none ↔ ∀ j b, d.circuit j = some b → b.cid ≠ cid := by
  simp only [Device.findCid, List.find?_eq_none, List.mem_finRange, true_imp_iff]
  refine forall_congr' fun j => ?_
  cases d.circuit j <;> simp

/-- What of a record has to be apart from every other: its circuit id and its description. -/
def Circuit.identity (c : Circuit) : Nat × Desc := (c.cid, c.desc)

/-- Where `d` has its records apart, so has `e`. -/
def Device.KeepsApart (d e : Device) : Prop := d.circuitsApart → e.circuitsApart

namespace Device.KeepsApart

theorem rfl' (d : Device) : d.KeepsApart d := id

theorem trans {d e f : Device} (h : d.KeepsApart e) (k : e.KeepsApart f) : d.KeepsApart f := k ∘ h

theorem thenIf {d e x : Device} {c : Prop} [Decidable c] (h : d.KeepsApart e) (k : e.KeepsApart x) :
    d.KeepsApart (if c then x else e) := by
  split
  · exact h.trans k
  · exact h

/-- A fold of operations that keep the records apart keeps them apart. -/
theorem foldl {α : Type} {f : Device → α → Device} (h : ∀ (d : Device) a, d.KeepsApart (f d a)) (l : List α)
    (d : Device) : d.KeepsApart (l.foldl f d) := by
  induction l generalizing d with
  | nil => exact rfl' d
  | cons a l ih => exact (h d a).trans (ih (f d a))

/-- Records that keep circuit id and description stay apart. -/
theorem of_identity {d e : Device}
    (h : ∀ i, (e.circuit i).map Circuit.identity = (d.circuit i).map Circuit.identity) : d.KeepsApart e := by
  have older : ∀ i a, e.circuit i = some a → ∃ a', d.circuit i = some a' ∧ a'.cid = a.cid ∧ a'.desc = a.desc := by
    intro i a ha
    have k := h i
    rw [ha, Option.map_some, eq_comm, Option.map_eq_some_iff] at k
    obtain ⟨a', ha', k⟩ := k
    exact ⟨a', ha', congrArg Prod.fst k, congrArg Prod.snd k⟩
  intro apart i j a b ne ha hb
  obtain ⟨a', ha', cidA, descA⟩ := older i a ha
  obtain ⟨b', hb', cidB, descB⟩ := older j b hb
  rw [← cidA, ← cidB, ← descA, ← descB]
  exact apart i j a' b' ne ha' hb'

theorem of_circuits {d e : Device} (h : e.circuits = d.circuits) : d.KeepsApart e :=
  of_identity fun i => by rw [Device.circuit, Device.circuit, h]

theorem after {d e f : Device} (k : e.KeepsApart f) (h : e.circuits = d.circuits) : d.KeepsApart f :=
  (of_circuits h).trans k

end Device.KeepsApart

/-- R9, R10: a record put where it is apart from every record of another entry. -/
theorem set_apart {d : Device} {i : Fin 256} {c : Circuit}
    (h : ∀ j b, j ≠ i → d.circuit j = some b → b.cid ≠ c.cid ∧ ¬b.desc.clashes c.desc) :
    d.KeepsApart { d with circuits := d.circuits.set i (some c) } := by
  intro apart j k a b ne ha hb
  simp only [Device.circuit, Table.get_set] at ha hb
  split at ha <;> split at hb
  · omega
  · cases ha
    obtain ⟨cid, desc⟩ := h k b ‹_› hb
    exact ⟨cid.symm, fun e => desc (Desc.clashes_symm e)⟩
  · cases hb
    exact h j a ‹_› ha
  · exact apart j k a b ne ha hb

/-- R22: a freed entry leaves the others apart. -/
theorem free_apart (d : Device) (i : Fin 256) : d.KeepsApart { d with circuits := d.circuits.set i none } := by
  intro apart j k a b ne ha hb
  simp only [Device.circuit, Table.get_set] at ha hb
  split at ha <;> split at hb
  · cases ha
  · cases ha
  · cases hb
  · exact apart j k a b ne ha hb

/-- An empty table has nothing to keep apart. -/
theorem empty_apart {d : Device} (h : d.circuits = .all 256 none) : d.circuitsApart := fun i j a b _ ha _ => by
  simp [Device.circuit, h] at ha

/-! ### The operations that keep every circuit id and description -/

/-- The records after one of them is changed. -/
theorem onCircuit_circuit (d : Device) (i : Fin 256) (f : Circuit → Circuit) (j : Fin 256) :
    (d.onCircuit i f).circuit j = (d.circuit j).map fun c => if j = i then f c else c := by
  by_cases h : j = i
  · subst h; simp [Device.circuit, Device.onCircuit]
  · simp [Device.circuit, Device.onCircuit, Table.get_modify_ne _ _ h, h]

theorem onCircuit_apart (d : Device) (i : Fin 256) {f : Circuit → Circuit} (h : ∀ c, (f c).identity = c.identity) :
    d.KeepsApart (d.onCircuit i f) := by
  refine .of_identity fun j => ?_
  rw [onCircuit_circuit, Option.map_map]
  congr 1
  funext c
  show (if j = i then f c else c).identity = c.identity
  split
  · exact h c
  · rfl

theorem respond_apart (d : Device) (p : Fin 4) (code rc : Nat) (body : List Byte) :
    d.KeepsApart (d.respond p code rc body) := .of_circuits rfl

theorem port_apart (d : Device) (p : Fin 4) (f : PortCtx → PortCtx) : d.KeepsApart (d.port p f) := .of_circuits rfl

theorem raiseLine_apart (d : Device) (c : AttClass) : d.KeepsApart (d.raiseLine c) := .of_circuits rfl

theorem raiseOwner_apart (d : Device) (o : Owner) (c : AttClass) : d.KeepsApart (d.raiseOwner o c) := .of_circuits rfl

theorem attendCircuit_apart (d : Device) (o : Owner) (i : Fin 256) : d.KeepsApart (d.attendCircuit o i) :=
  .of_circuits rfl

theorem attendChange_apart (d : Device) (i : Fin 256) (b : Option Circuit) : d.KeepsApart (d.attendChange i b) := by
  unfold Device.attendChange
  split
  · exact .rfl' d
  · split
    · exact .rfl' d
    · exact attendCircuit_apart d _ i

theorem raiseCheck_apart (d : Device) (c : CheckCause) : d.KeepsApart (d.raiseCheck c) := by
  unfold Device.raiseCheck
  split <;> exact .of_circuits rfl

theorem link_apart (d : Device) (g : Fin 4) (f : Link → Link) : d.KeepsApart (d.link g f) := .of_circuits rfl

theorem onRun_apart (d : Device) (slot : Fin 32) (f : Run → Run) : d.KeepsApart (d.onRun slot f) := .of_circuits rfl

theorem enter_apart (d : Device) (slot : Fin 32) (phase : Phase) (wait : Nat) :
    d.KeepsApart (d.enter slot phase wait) := onRun_apart d slot _

theorem sendOpt_apart (d : Device) (g : Option (Fin 4)) (m : Message) : d.KeepsApart (d.sendOpt g m) := by
  obtain ⟨links, ports, e⟩ := sendOpt_eq d g m
  exact .of_circuits (by rw [e])

theorem send_apart (d : Device) (g : Fin 4) (m : Message) : d.KeepsApart (d.send g m) := sendOpt_apart d (some g) m

theorem moveCounter_apart (d : Device) : d.KeepsApart d.moveCounter := by
  unfold Device.moveCounter
  split <;> exact .of_circuits rfl

theorem enqueue_apart (d : Device) (i : Fin 256) (k : Kind) (c : QClass) : d.KeepsApart (d.enqueue i k c) := by
  unfold Device.enqueue
  split
  · exact .rfl' d
  · split
    · exact .of_circuits rfl
    · unfold Device.newEntry
      exact (moveCounter_apart _).after rfl

theorem putBack_apart (d : Device) (g : GrantRecord) (t : Option Nat) : d.KeepsApart (d.putBack g t) := by
  unfold Device.putBack
  split
  · exact .rfl' d
  · split <;> exact .of_circuits rfl

theorem removeEntries_apart (d : Device) (i : Fin 256) : d.KeepsApart (d.removeEntries i) := .of_circuits rfl

theorem onWindows_apart (d : Device) (f : Window → Window) : d.KeepsApart (d.onWindows f) := by
  obtain ⟨ports, e⟩ := onWindows_eq d f
  exact .of_circuits (by rw [e])

theorem giveUpListen_apart (d : Device) (s : Fin 32) : d.KeepsApart (d.giveUpListen s) := by
  unfold Device.giveUpListen
  split
  · split
    · exact .of_circuits rfl
    · exact .rfl' d
  · exact .rfl' d

theorem freeInjectorOf_apart (d : Device) (s : Fin 32) : d.KeepsApart (d.freeInjectorOf s) := .of_circuits rfl

theorem attach_apart (d : Device) (i : Fin 256) (r : RunId) (k : Kind) : d.KeepsApart (d.attach i r k) :=
  onCircuit_apart d i fun c => by dsimp only; split <;> rfl

theorem detach_apart (d : Device) (i : Fin 256) : d.KeepsApart (d.detach i) :=
  onCircuit_apart d i fun c => by dsimp only; split <;> rfl

theorem freeRun_apart (d : Device) (s : Fin 32) : d.KeepsApart (d.freeRun s) := by
  unfold Device.freeRun
  split
  · exact .rfl' d
  · refine .trans ?_ (detach_apart _ _)
    exact ((giveUpListen_apart d s).trans (freeInjectorOf_apart _ s)).trans (.of_circuits rfl)

theorem abandonRun_apart (d : Device) (i : Fin 256) (r : Reason) : d.KeepsApart (d.abandonRun i r) := by
  unfold Device.abandonRun
  split
  · exact .rfl' d
  · split
    · exact .rfl' d
    · dsimp only
      split
      · exact (sendOpt_apart d _ _).trans (freeRun_apart _ _)
      · exact ((sendOpt_apart d _ _).trans (sendOpt_apart _ _ _)).trans (freeRun_apart _ _)

theorem closeListen_apart (d : Device) (s : Fin 32) : d.KeepsApart (d.closeListen s) := by
  unfold Device.closeListen
  split
  · exact .rfl' d
  · split
    · exact .rfl' d
    · exact .trans (.of_circuits rfl) (onCircuit_apart _ _ fun _ => rfl)

/-! ### Hold changes (R12, R70 to R74) -/

theorem intoDue_apart (d : Device) (i : Fin 256) : d.KeepsApart (d.intoDue i) := by
  unfold Device.intoDue
  split
  · exact .rfl' d
  · split
    · exact enqueue_apart d i _ _
    · exact (sendOpt_apart d _ _).trans (onCircuit_apart _ i fun _ => rfl)

theorem holdBegins_apart (d : Device) (i : Fin 256) : d.KeepsApart (d.holdBegins i) :=
  ((onCircuit_apart d i fun _ => by rfl).trans (abandonRun_apart _ i _)).trans (onCircuit_apart _ i fun _ => by rfl)

theorem holdEnds_apart (d : Device) (i : Fin 256) : d.KeepsApart (d.holdEnds i) :=
  (onCircuit_apart d i fun _ => by rfl).trans (intoDue_apart _ i)

theorem holdChange_apart (d : Device) (i : Fin 256) (h : HoldChange) : d.KeepsApart (d.holdChange i h) := by
  unfold Device.holdChange
  dsimp only
  split
  · exact (holdBegins_apart d i).trans (attendChange_apart _ i _)
  · exact (holdEnds_apart d i).trans (attendChange_apart _ i _)
  · exact ((holdBegins_apart d i).trans (holdEnds_apart _ i)).trans (attendChange_apart _ i _)
  · exact .rfl' d
  · exact .rfl' d

theorem calendarTakes_apart (d : Device) (i : Fin 256) : d.KeepsApart (d.calendarTakes i) := by
  unfold Device.calendarTakes
  split
  · exact .rfl' d
  · dsimp only
    split
    · exact .rfl' d
    · exact (holdChange_apart _ i _).after rfl

/-! ### Edits (R9, R17, R20, R21) -/

/-- An edit applied writes the description of one record and no circuit id, so the records stay apart where the
description clashes with no other record. -/
theorem applyEdit_apart {d : Device} {i : Fin 256} {x : Desc}
    (h : ∀ j b, j ≠ i → d.circuit j = some b → ¬b.desc.clashes x) (path : Bool) :
    d.KeepsApart (d.applyEdit i x path) := by
  have written : ∀ f : Circuit → Circuit, (∀ c, (f c).identity = (c.cid, x)) → d.KeepsApart (d.onCircuit i f) := by
    intro f hf
    cases hc : d.circuit i with
    | none =>
      refine .of_identity fun j => ?_
      rw [onCircuit_circuit]
      by_cases e : j = i
      · rw [e, hc]; rfl
      · simp [e]
    | some c =>
      intro apart
      rw [onCircuit_eq hc]
      refine set_apart (fun j b ne hb => ?_) apart
      rw [show (f c).cid = c.cid from congrArg Prod.fst (hf c), show (f c).desc = x from congrArg Prod.snd (hf c)]
      exact ⟨(apart j i b c ne hb hc).1, h j b ne hb⟩
  unfold Device.applyEdit
  dsimp only
  split
  · refine .trans (.trans (written _ fun c => ?_) (.thenIf (.rfl' _) (removeEntries_apart _ i)))
      (calendarTakes_apart _ i)
    rfl
  · exact written _ fun c => rfl

/-- R21: a staged edit that is applied clashes with no other record. -/
theorem judgeEdit_fits {d : Device} {i : Fin 256} {c x : Desc} {e : StagedEdit}
    (h : (d.judgeEdit i c e).2 = some x) : d.conflicts (some i) x = false := by
  unfold Device.judgeEdit at h
  split at h
  · cases h
  · split at h
    · cases h
    · split at h
      · cases h
      · cases h; exact Bool.not_eq_true _ ▸ ‹¬_›

theorem judgeStaged_apart (d : Device) (i : Fin 256) : d.KeepsApart (d.judgeStaged i) := by
  unfold Device.judgeStaged
  split
  · exact .rfl' d
  next c hc =>
  split
  · exact .rfl' d
  next e he =>
  split
  · exact .rfl' d
  · dsimp only
    refine .trans ?_ (raiseOwner_apart _ _ _)
    split
    · exact onCircuit_apart d i fun _ => rfl
    next x hx =>
    refine .trans (onCircuit_apart d i ?_) (applyEdit_apart (fun j b ne hb => ?_) _)
    · exact fun _ => rfl
    rw [onCircuit_circuit] at hb
    simp only [ne, if_false, Option.map_id'] at hb
    exact conflicts_eq_false.mp (judgeEdit_fits hx) j b (by simpa using ne) hb

end Sys2Proof.Machine

/-! SUPPORT. The records stay apart: runs, the Arbiter, the calendar, peer messages, links and timers. -/

namespace Sys2Proof.Machine

/-! ### The end of a run and the Arbiter (R77 to R81, R94 to R99, R108) -/

theorem dropRun_apart (d : Device) (s : Fin 32) : d.KeepsApart (d.dropRun s) := by
  unfold Device.dropRun
  split
  · exact .rfl' d
  · exact (freeRun_apart d s).trans (judgeStaged_apart _ _)

theorem settle_identity (c : Circuit) (o : RunOutcome) (t : WallTime) (l : Option HopList) :
    (c.settle o t l).identity = c.identity := by
  have desc := congrArg Circuit.desc (take_keeps c o.verdict o.cls)
  have cid := congrArg Circuit.cid (take_keeps c o.verdict o.cls)
  exact Prod.ext cid desc

theorem applyOutcome_apart (d : Device) (i : Fin 256) (o : RunOutcome) (l : Option HopList) :
    d.KeepsApart (d.applyOutcome i o l) := by
  unfold Device.applyOutcome
  split
  · exact .rfl' d
  · split
    · exact .rfl' d
    · dsimp only
      refine .trans ?_ (raiseOwner_apart _ _ _)
      refine .trans ?_ (attendChange_apart _ i _)
      have settled := onCircuit_apart d i fun c => settle_identity c o d.clock.time l
      split
      · exact settled
      · exact settled.trans (onWindows_apart _ _)

theorem deferRun_apart (d : Device) (s : Fin 32) : d.KeepsApart (d.deferRun s) := by
  unfold Device.deferRun
  split
  · exact putBack_apart _ _ _
  · exact .rfl' _

theorem endHead_apart (d : Device) (s : Fin 32) (f : Finding) (cancel : Bool) :
    d.KeepsApart (d.endHead s f cancel) := by
  unfold Device.endHead
  split
  · exact .rfl' d
  split
  · exact .rfl' d
  dsimp only
  refine .trans ?_ (judgeStaged_apart _ _)
  refine .trans ?_ (freeRun_apart _ _)
  refine .thenIf ?_ (sendOpt_apart _ _ _)
  refine .trans ?_ (sendOpt_apart _ _ _)
  refine .thenIf (.trans ?_ (applyOutcome_apart _ _ _ _)) (deferRun_apart _ _)
  exact .thenIf ((giveUpListen_apart d s).trans (freeInjectorOf_apart _ s)) (raiseCheck_apart _ _)

theorem announceHead_apart (d : Device) (s : Fin 32) : d.KeepsApart (d.announceHead s) := by
  unfold Device.announceHead
  split
  · exact .rfl' d
  · split
    · exact .rfl' d
    · split
      · exact send_apart d _ _
      · exact endHead_apart d s _ _

theorem openHead_apart (d : Device) (e : QueueEntry) (c : Circuit) (j : Fin 4) (slot : Fin 32) :
    d.KeepsApart (d.openHead e c j slot) :=
  (attach_apart _ _ _ _).after rfl

theorem grant_apart (d : Device) : d.KeepsApart d.grant := by
  have promoted : d.KeepsApart d.promote := .of_circuits rfl
  unfold Device.grant
  dsimp only
  split
  · split
    · exact promoted.trans ((openHead_apart _ _ _ _ _).trans (announceHead_apart _ _))
    · exact promoted
  · exact promoted

theorem preempt_apart (d : Device) : d.KeepsApart d.preempt := by
  unfold Device.preempt
  split
  · exact .rfl' d
  · split
    · exact .rfl' d
    · exact ((sendOpt_apart d _ _).trans (putBack_apart _ _ _)).trans (dropRun_apart _ _)

theorem grantAll_apart (fuel : Nat) (judge : Bool) (d : Device) : d.KeepsApart (Device.grantAll fuel judge d) := by
  induction fuel generalizing judge d with
  | zero => exact .rfl' d
  | succ n ih =>
    unfold Device.grantAll
    split
    · exact (grant_apart d).trans (ih _ _)
    · split
      · exact (preempt_apart d).trans (ih _ _)
      · exact .rfl' d

theorem arbitrate_apart (before : Device) (judge : Bool) (d : Device) :
    d.KeepsApart (Device.arbitrate before judge d) := grantAll_apart _ _ d

/-! ### The calendar and the clock (R44 to R64) -/

theorem moveWindow_apart (d : Device) (w : Fin 16) (x : Window) : d.KeepsApart (d.moveWindow w x) := .of_circuits rfl

theorem askBaseline_apart (d : Device) (i : Fin 256) : d.KeepsApart (d.askBaseline i) := by
  unfold Device.askBaseline
  split
  · exact .rfl' d
  · split
    · exact enqueue_apart d i _ _
    · exact sendOpt_apart d _ _

theorem commitSince_identity (since : Option Since) (c : Circuit) : (c.commitSince since).identity = c.identity := by
  unfold Circuit.commitSince
  split
  · split <;> rfl
  · rfl

theorem walkWindow_apart (d : Device) (w : Fin 16) : d.KeepsApart (d.walkWindow w) := by
  have baselining : ∀ d : Device, d.KeepsApart (d.toBaselining w) := fun d => by
    unfold Device.toBaselining
    split
    · exact .rfl' d
    · exact .thenIf (.rfl' d) ((moveWindow_apart d w _).trans (.foldl askBaseline_apart _ _))
  have opened : ∀ d : Device, d.KeepsApart (d.toOpen w) := fun d => by
    unfold Device.toOpen
    split
    · exact .rfl' d
    · exact .thenIf (.rfl' d)
        ((moveWindow_apart d w _).trans (.foldl (fun d i => onCircuit_apart d i (commitSince_identity _)) _ _))
  have verifying : ∀ d : Device, d.KeepsApart (d.toVerifying w) := fun d => by
    unfold Device.toVerifying
    split
    · exact .rfl' d
    · exact .thenIf (.rfl' d) (moveWindow_apart d w _)
  have done : ∀ d : Device, d.KeepsApart (d.toDone w) := fun d => by
    unfold Device.toDone
    split
    · exact .rfl' d
    · exact .thenIf (.rfl' d) (moveWindow_apart d w _)
  have overdue : ∀ d : Device, d.KeepsApart (d.toOverdue w) := fun d => by
    unfold Device.toOverdue
    split
    · exact .rfl' d
    · exact .thenIf (.rfl' d) (moveWindow_apart d w _)
  exact ((((baselining d).trans (opened _)).trans (verifying _)).trans (done _)).trans (overdue _)

theorem deliver_apart (b a : Table (Option Window) 16) (d : Device) (i : Fin 256) : d.KeepsApart (deliver b a d i) := by
  unfold deliver
  dsimp only
  split
  · exact .rfl' d
  · exact holdChange_apart d i _

theorem evaluate_apart (d : Device) : d.KeepsApart d.evaluate :=
  (Device.KeepsApart.foldl walkWindow_apart _ d).trans (.foldl (deliver_apart _ _) _ _)

theorem tick_apart (d : Device) : d.KeepsApart d.tick := by
  unfold Device.tick
  split
  · split <;> exact .of_circuits rfl
  · dsimp only
    split
    · exact (evaluate_apart _).after rfl
    · exact .of_circuits rfl

theorem endHold_apart (d : Device) : d.KeepsApart d.endHold := (evaluate_apart _).after rfl

theorem tickTaken_apart (d : Device) : d.KeepsApart d.tickTaken :=
  .trans (e := d.tick) (tick_apart d) (by
    unfold Device.tickTaken
    split
    · exact arbitrate_apart _ _ _
    · exact .rfl' _)

theorem dividerTick_apart (d : Device) : d.KeepsApart d.dividerTick := by
  unfold Device.dividerTick
  split
  · exact .rfl' d
  · exact (tickTaken_apart _).after rfl

theorem ppsEdge_apart (d : Device) : d.KeepsApart d.ppsEdge := by
  unfold Device.ppsEdge
  dsimp only
  refine .trans ?_ (tickTaken_apart _)
  split <;> exact .of_circuits rfl

theorem lineChange_apart (l : Fin 8) (high : Bool) (d : Device) : d.KeepsApart (d.lineChange l high) := by
  unfold Device.lineChange
  dsimp only
  split
  · exact (ppsEdge_apart _).after rfl
  · split
    · exact (arbitrate_apart _ _ _).after rfl
    · exact .of_circuits rfl

theorem onExpiry_apart (d : Device) (t : Option Nat) {f : Device → Device} (h : ∀ d : Device, d.KeepsApart (f d)) :
    d.KeepsApart (d.onExpiry t f) := by
  unfold Device.onExpiry
  split
  · exact .rfl' d
  · exact (h _).after rfl

theorem holdExpires_apart (d : Device) : d.KeepsApart d.holdExpires :=
  onExpiry_apart d _ fun _ => ((endHold_apart _).trans (raiseLine_apart _ _)).trans (arbitrate_apart _ _ _)

theorem ppsExpires_apart (d : Device) : d.KeepsApart d.ppsExpires := by
  unfold Device.ppsExpires
  split
  · exact .rfl' d
  · exact .of_circuits rfl

/-! ### Peer messages and links (R106 to R128, R147 to R158) -/

theorem unlessReset_apart {f : Device → Device} (h : ∀ d : Device, d.KeepsApart (f d)) (d : Device) :
    d.KeepsApart (unlessReset f d) := by
  unfold unlessReset
  split
  · exact .rfl' d
  · exact h d

theorem receive_apart (g : Fin 4) (m : Message) {f : Device → Device} (h : ∀ d : Device, d.KeepsApart (f d))
    (d : Device) : d.KeepsApart (d.receive g m f) :=
  .thenIf (link_apart d g _) (h _)

theorem onMatched_apart (d : Device) (cid : Nat) (run : RunId) (side : Run → Option (Fin 4)) (g : Fin 4)
    {f : Fin 32 → Run → Device} (h : ∀ slot r, d.KeepsApart (f slot r)) :
    d.KeepsApart (d.onMatched cid run side g f) := by
  unfold Device.onMatched
  split
  · exact .rfl' d
  · exact h _ _

theorem passAnnounce_apart (d : Device) (c : Circuit) (run : RunId) (kind : Kind) (dwell : Nat) :
    d.KeepsApart (d.passAnnounce c run kind dwell) := by
  unfold Device.passAnnounce
  split
  · exact sendOpt_apart d _ _
  · exact sendOpt_apart d _ _

theorem accept_apart (d : Device) (i : Fin 256) (c : Circuit) (run : RunId) (kind : Kind) (dwell : Nat) :
    d.KeepsApart (d.accept i c run kind dwell) := by
  have without : d.KeepsApart (d.withoutRun i) := by
    unfold Device.withoutRun
    split
    · exact .rfl' d
    · exact freeRun_apart d _
  unfold Device.accept
  dsimp only
  split
  · exact without
  · refine without.trans (.trans ?_ (passAnnounce_apart _ _ _ _ _))
    exact (attach_apart _ _ _ _).after rfl

theorem announced_apart (g : Fin 4) (cid : Nat) (run : RunId) (kind : Kind) (hop n dwell : Nat) (d : Device) :
    d.KeepsApart (d.announced g cid run kind hop n dwell) := by
  unfold Device.announced
  split
  · exact send_apart d _ _
  split
  · exact .rfl' d
  split
  · exact send_apart d _ _
  · exact .thenIf (accept_apart d _ _ _ _ _) (arbitrate_apart _ _ _)

theorem armedArrives_apart (g : Fin 4) (cid : Nat) (run : RunId) (d : Device) :
    d.KeepsApart (d.armedArrives g cid run) :=
  onMatched_apart d cid run _ g fun slot r => by
    unfold Device.takeArmed
    split
    · exact (sendOpt_apart d _ _).trans (enter_apart _ _ _ _)
    · split
      · exact .rfl' d
      · exact .of_circuits rfl
    · exact .rfl' d

theorem report_apart (d : Device) (slot : Fin 32) (r : Run) (truncated : Bool) (hops : List HopResult) :
    d.KeepsApart (d.report slot r truncated hops) :=
  (sendOpt_apart d _ _).trans (enter_apart _ _ _ _)

theorem stopArrives_apart (g : Fin 4) (cid : Nat) (run : RunId) (d : Device) : d.KeepsApart (d.stopArrives g cid run) :=
  onMatched_apart d cid run _ g fun slot r => by
    refine .thenIf (.rfl' d) (.trans ?_ (arbitrate_apart _ _ _))
    unfold Device.takeStop
    split
    · exact ((sendOpt_apart d _ _).trans (closeListen_apart _ _)).trans (enter_apart _ _ _ _)
    · exact (closeListen_apart d _).trans (report_apart _ _ _ _ _)
    · exact .rfl' d

theorem endOnList_apart (d : Device) (slot : Fin 32) (r : Run) (l : HopList) : d.KeepsApart (d.endOnList slot r l) :=
  (onRun_apart d slot _).trans (endHead_apart _ _ _ _)

theorem reportArrives_apart (g : Fin 4) (cid : Nat) (run : RunId) (truncated : Bool) (hops : List HopResult)
    (d : Device) : d.KeepsApart (d.reportArrives g cid run truncated hops) :=
  onMatched_apart d cid run _ g fun slot r => by
    split
    · exact .rfl' d
    · split
      · exact report_apart d _ _ _ _
      · exact (endOnList_apart d _ _ _).trans (arbitrate_apart _ _ _)
      · exact .rfl' d

theorem refuseArrives_apart (g : Fin 4) (cid : Nat) (run : RunId) (hop : Nat) (reason : Reason) (d : Device) :
    d.KeepsApart (d.refuseArrives g cid run hop reason) :=
  onMatched_apart d cid run _ g fun slot r => by
    refine .trans ?_ (arbitrate_apart _ _ _)
    unfold Device.takeRefuse
    split
    · exact endHead_apart d _ _ _
    · dsimp only
      split
      · exact sendOpt_apart d _ _
      · exact ((sendOpt_apart d _ _).trans (giveUpListen_apart _ _)).trans (enter_apart _ _ _ _)
    · exact .rfl' d

theorem outcomeArrives_apart (g : Fin 4) (o : RunOutcome) (d : Device) : d.KeepsApart (d.outcomeArrives g o) := by
  unfold Device.outcomeArrives
  split
  · unfold Device.passOutcome
    split
    · exact .rfl' d
    · exact .thenIf (.rfl' d) (sendOpt_apart d _ _)
  · refine .trans ?_ (arbitrate_apart _ _ _)
    exact ((sendOpt_apart d _ _).trans (applyOutcome_apart _ _ _ _)).trans (dropRun_apart _ _)

theorem cancelDown_apart (d : Device) (slot : Fin 32) (r : Run) : d.KeepsApart (d.cancelDown slot r) :=
  (sendOpt_apart d _ _).trans (dropRun_apart _ _)

theorem cancelArrives_apart (g : Fin 4) (cid : Nat) (run : RunId) (d : Device) :
    d.KeepsApart (d.cancelArrives g cid run) :=
  onMatched_apart d cid run _ g fun _ _ => (cancelDown_apart d _ _).trans (arbitrate_apart _ _ _)

theorem requestArrives_apart (g : Fin 4) (cid : Nat) (kind : Kind) (d : Device) :
    d.KeepsApart (d.requestArrives g cid kind) := by
  unfold Device.requestArrives
  split
  · exact .rfl' d
  split
  · exact .rfl' d
  refine .thenIf (.rfl' d) ?_
  unfold Device.takeRequest
  split
  · exact (enqueue_apart d _ _ _).trans (arbitrate_apart _ _ _)
  · exact sendOpt_apart d _ _
  · exact .rfl' d

theorem loseDown_apart (d : Device) (slot : Fin 32) (r : Run) : d.KeepsApart (d.loseDown slot r) := by
  unfold Device.loseDown
  split
  · exact (sendOpt_apart d _ _).trans (dropRun_apart _ _)
  · exact (sendOpt_apart d _ _).trans (dropRun_apart _ _)
  · exact report_apart d _ _ _ _
  · exact .rfl' d
  · exact endHead_apart d _ _ _
  · exact endHead_apart d _ _ _
  · exact endHead_apart d _ _ _

theorem linkLost_apart (d : Device) (g : Fin 4) : d.KeepsApart (d.linkLost g) := by
  refine .trans (.foldl (fun d slot => ?_) _ d) (arbitrate_apart _ _ _)
  unfold Device.loseLink
  split
  · exact .rfl' d
  · split
    · exact cancelDown_apart d _ _
    · exact .thenIf (.rfl' d) (loseDown_apart d _ _)

theorem linkWithPlant_apart (d : Device) (g : Fin 4) (f : Link → Link) : d.KeepsApart (d.linkWithPlant g f) := by
  unfold Device.linkWithPlant
  dsimp only
  split <;> exact .of_circuits rfl

theorem miswire_apart (d : Device) (g : Fin 4) (node degree accepting : Nat) :
    d.KeepsApart (d.miswire g node degree accepting) :=
  (linkWithPlant_apart d g _).trans (raiseCheck_apart _ _)

theorem helloArrives_apart (g : Fin 4) (node degree : Nat) (d : Device) :
    d.KeepsApart (d.helloArrives g node degree) := by
  have agreed : ∀ d : Device, d.KeepsApart (d.helloAgreed g) := fun d => by
    unfold Device.helloAgreed
    split
    · exact .rfl' d
    · exact linkWithPlant_apart d g _
    · exact linkWithPlant_apart d g _
    · exact .rfl' d
    · exact linkWithPlant_apart d g _
  have disagreed : ∀ (d : Device) (a : Nat), d.KeepsApart (d.helloDisagreed g node degree a) := fun d a => by
    unfold Device.helloDisagreed
    split
    · exact .rfl' d
    · exact miswire_apart d g _ _ _
    · exact miswire_apart d g _ _ _
    · exact (miswire_apart d g _ _ _).trans (linkLost_apart _ g)
    · exact link_apart d g _
  unfold Device.helloArrives
  split
  · exact .rfl' d
  · dsimp only
    split
    · split
      · exact (agreed _).after rfl
      · exact (disagreed _ _).after rfl
    · exact link_apart d g _

theorem silencePasses_apart (g : Fin 4) (d : Device) : d.KeepsApart (d.silencePasses g) :=
  onExpiry_apart d _ fun _ => .thenIf (linkWithPlant_apart _ g _) (linkLost_apart _ g)

theorem dispatch_apart (g : Fin 4) (m : Message) (d : Device) : d.KeepsApart (d.dispatch g m) := by
  cases m with
  | announce cid run kind hop n dwell => exact announced_apart g cid run kind hop n dwell d
  | armed cid run => exact armedArrives_apart g cid run d
  | stop cid run => exact stopArrives_apart g cid run d
  | report cid run truncated hops => exact reportArrives_apart g cid run truncated hops d
  | refuse cid run hop reason => exact refuseArrives_apart g cid run hop reason d
  | cancel cid run => exact cancelArrives_apart g cid run d
  | outcome o => exact outcomeArrives_apart g o d
  | request cid kind => exact requestArrives_apart g cid kind d

theorem takeFrame_apart (g : Fin 4) (bytes : List Byte) (d : Device) : d.KeepsApart (d.takeFrame g bytes) := by
  unfold Device.takeFrame
  split
  · exact .rfl' d
  · split
    · exact link_apart d g _
    · exact helloArrives_apart g _ _ d
    · exact receive_apart g _ (dispatch_apart g _) d

theorem framesArrive_apart (g : Fin 4) (bytes : List Byte) (d : Device) : d.KeepsApart (d.framesArrive g bytes) :=
  .foldl (fun d rest => unlessReset_apart (takeFrame_apart g rest) d) _ d

/-! ### The expiries of the runs and the Arbiter's instants (R75, R94, R98, R115 to R124) -/

theorem onWaitIn_apart (slot : Fin 32) (runs : Run → Bool) {f : Device → Run → Device}
    (h : ∀ (d : Device) r, d.KeepsApart (f d r)) (d : Device) : d.KeepsApart (d.onWaitIn slot runs f) := by
  unfold Device.onWaitIn
  split
  · exact .rfl' d
  · exact .thenIf (.rfl' d) ((h _ _).after rfl)

theorem armedExpires_apart (d : Device) (slot : Fin 32) (r : Run) : d.KeepsApart (d.armedExpires slot r) := by
  unfold Device.armedExpires
  split
  · exact endHead_apart d _ _ _
  · exact (sendOpt_apart d _ _).trans (cancelDown_apart _ _ _)

theorem dwellEnds_apart (d : Device) (slot : Fin 32) (r : Run) : d.KeepsApart (d.dwellEnds slot r) :=
  (((freeInjectorOf_apart d slot).trans (sendOpt_apart _ _ _)).trans (closeListen_apart _ _)).trans
    (enter_apart _ _ _ _)

theorem reportExpires_apart (d : Device) (slot : Fin 32) (r : Run) : d.KeepsApart (d.reportExpires slot r) := by
  unfold Device.reportExpires
  split
  · exact (endOnList_apart d _ _ _).trans (arbitrate_apart _ _ _)
  · exact report_apart d _ _ _ _

theorem requestTimer_apart (i : Fin 256) (d : Device) : d.KeepsApart (d.requestTimer i) := by
  unfold Device.requestTimer
  split
  · exact .rfl' d
  refine onExpiry_apart d _ fun d => ?_
  unfold Device.requestExpires
  split
  · exact (sendOpt_apart d _ _).trans (onCircuit_apart _ i fun _ => by rfl)
  · exact ((onCircuit_apart d i fun _ => by rfl).trans (attendChange_apart _ i _)).trans (judgeStaged_apart _ i)

theorem eligiblePasses_apart (i : Fin 256) (kind : Kind) (d : Device) : d.KeepsApart (d.eligiblePasses i kind) := by
  unfold Device.eligiblePasses
  split
  · exact .rfl' d
  · exact onExpiry_apart d _ fun d => arbitrate_apart d _ d

theorem preemptPasses_apart (i : Fin 256) (kind : Kind) (d : Device) : d.KeepsApart (d.preemptPasses i kind) := by
  unfold Device.preemptPasses
  split
  · exact .rfl' d
  · exact .thenIf (.rfl' d) ((arbitrate_apart _ _ _).after rfl)

end Sys2Proof.Machine

/-! SUPPORT. The records stay apart: the client commands, every command and every step. -/

namespace Sys2Proof.Machine

/-! ### The client commands (R164, R191) -/

theorem request_apart (r : CommandRule) (p : Fin 4) (ok : Bool) {act : Device → Device}
    (h : ∀ d : Device, d.KeepsApart (act d)) (d : Device) : d.KeepsApart (d.request r p ok act) := by
  unfold Device.request
  split
  · exact .rfl' d
  split
  · exact port_apart d p _
  split
  · exact respond_apart d p _ _ _
  · exact h d

theorem onNamed_apart (d : Device) (p : Fin 4) (code : Nat) (right : Right) (body : List Byte)
    {act : Fin 256 → Circuit → Device} (h : ∀ i c, d.circuit i = some c → d.KeepsApart (act i c)) :
    d.KeepsApart (d.onNamed p code right body act) := by
  unfold Device.onNamed
  split
  · exact respond_apart d p _ _ _
  next c hc =>
  split
  · exact h _ _ (named_circuit hc).1
  · exact respond_apart d p _ _ _

/-- R10: a registration that passes is of an unused circuit id and clashes with no record. -/
theorem judgeRegistration_entry {d : Device} {cid : Nat} {x : Desc} {i : Fin 256}
    (h : d.judgeRegistration cid x = .inl i) : d.findCid cid = none ∧ d.conflicts none x = false := by
  unfold Device.judgeRegistration at h
  split at h
  · cases h
  split at h
  · cases h
  split at h
  · cases h
  split at h
  · cases h
  exact ⟨Option.not_isSome_iff_eq_none.mp ‹_›, Bool.eq_false_iff.mpr ‹_›⟩

theorem create_apart {d : Device} {i : Fin 256} {c : Circuit} (cid : d.findCid c.cid = none)
    (desc : d.conflicts none c.desc = false) : d.KeepsApart (d.create i c) := by
  refine .trans (.trans (set_apart fun j b _ hb => ⟨?_, ?_⟩) (calendarTakes_apart _ i)) (attendCircuit_apart _ _ i)
  · exact findCid_eq_none.mp cid j b hb
  · exact conflicts_eq_false.mp desc j b (by simp) hb

theorem register_apart (p : Fin 4) (body : List Byte) (d : Device) : d.KeepsApart (d.register p body) := by
  unfold Device.register
  split
  · exact respond_apart d p _ _ _
  split
  · exact respond_apart d p _ _ _
  next passed =>
  obtain ⟨cid, desc⟩ := judgeRegistration_entry passed
  exact (create_apart cid desc).trans (respond_apart _ p _ _ _)

/-- R15: an accepted edit clashes with no other record. -/
theorem judgeRequestedEdit_fits {d : Device} {i : Fin 256} {c : Circuit} {l : Option (List Change)}
    {r : List Change × Desc} (h : d.judgeRequestedEdit i c l = .inl r) : d.conflicts (some i) r.2 = false := by
  unfold Device.judgeRequestedEdit at h
  split at h
  · cases h
  split at h
  · cases h
  split at h
  · cases h
  split at h
  · cases h
  cases h
  exact Bool.eq_false_iff.mpr ‹_›

theorem acceptEdit_apart {d : Device} {i : Fin 256} {x : Desc} (h : d.conflicts (some i) x = false) (p : Fin 4)
    (c : Circuit) (transparent : Bool) (changes : List Change) :
    d.KeepsApart (d.acceptEdit p i c transparent changes x) := by
  have applied : ∀ path, d.KeepsApart ((d.applyEdit i x path).respond p 0x11 rcOk []) := fun path =>
    (applyEdit_apart (fun j b ne hb => conflicts_eq_false.mp h j b (by simpa using ne) hb) path).trans
      (respond_apart _ p _ _ _)
  unfold Device.acceptEdit
  dsimp only
  split
  · exact .thenIf (applied _) (arbitrate_apart _ _ _)
  · split
    · exact applied false
    · exact (onCircuit_apart d i fun _ => by rfl).trans (respond_apart _ p _ _ _)

theorem edit_apart (p : Fin 4) (body : List Byte) (d : Device) : d.KeepsApart (d.edit p body) := by
  unfold Device.edit
  split
  · exact respond_apart d p _ _ _
  refine onNamed_apart d p _ _ body fun i c _ => ?_
  split
  · exact respond_apart d p _ _ _
  next accepted =>
  exact acceptEdit_apart (judgeRequestedEdit_fits accepted) p c _ _

theorem delete_apart (p : Fin 4) (body : List Byte) (d : Device) : d.KeepsApart (d.delete p body) :=
  onNamed_apart d p _ _ body fun i c _ => by
    refine .trans (.trans ?_ (respond_apart _ p _ _ _)) (arbitrate_apart _ _ _)
    refine .trans (.trans ?_ (free_apart _ i)) (attendCircuit_apart _ _ i)
    exact ((removeEntries_apart d i).trans (abandonRun_apart _ i _)).trans (onWindows_apart _ _)

theorem permitRequested_apart (p : Fin 4) (body : List Byte) (d : Device) :
    d.KeepsApart (d.permitRequested p body) := by
  unfold Device.permitRequested
  split
  · exact respond_apart d p _ _ _
  · exact onNamed_apart d p _ _ body fun i c _ =>
      ((onCircuit_apart d i fun _ => by rfl).trans (attendChange_apart _ i _)).trans (respond_apart _ p _ _ _)

theorem confirm_apart (p : Fin 4) (body : List Byte) (d : Device) : d.KeepsApart (d.confirm p body) :=
  onNamed_apart d p _ _ body fun i c _ => by
    split
    · refine (respond_apart d p 0x14 rcOk []).trans ?_
      have serving : ∀ d : Device, d.KeepsApart
          ((d.onCircuit i fun c => { c with service := .inService }).attendChange i (some c)) := fun d =>
        (onCircuit_apart d i fun _ => by rfl).trans (attendChange_apart _ i _)
      unfold Device.confirmed
      dsimp only
      split
      · exact serving _
      · exact ((serving _).trans (judgeStaged_apart _ i)).trans (arbitrate_apart _ _ _)
    · exact respond_apart d p _ _ _

theorem askRun_apart (d : Device) (p : Fin 4) (code : Nat) (i : Fin 256) (c : Circuit) (k : Kind) (cls : QClass) :
    d.KeepsApart (d.askRun p code i c k cls) := by
  unfold Device.askRun
  split
  · exact respond_apart d p _ _ _
  split
  · exact ((enqueue_apart d i k cls).trans (respond_apart _ p _ _ _)).trans (arbitrate_apart _ _ _)
  · exact (sendOpt_apart d _ _).trans (respond_apart _ p _ _ _)

theorem verify_apart (p : Fin 4) (body : List Byte) (d : Device) : d.KeepsApart (d.verify p body) := by
  unfold Device.verify
  split
  · exact respond_apart d p _ _ _
  refine onNamed_apart d p _ _ body fun i c _ => ?_
  split
  · exact askRun_apart d p _ i c _ _
  · exact respond_apart d p _ _ _

theorem baseline_apart (p : Fin 4) (body : List Byte) (d : Device) : d.KeepsApart (d.baseline p body) :=
  onNamed_apart d p _ _ body fun i c _ => askRun_apart d p _ i c _ _

/-- R137, R138: a change of a record that keeps its identity, and the answer. -/
theorem changeAnswered_apart (d : Device) (i : Fin 256) {f : Circuit → Circuit} (h : ∀ c, (f c).identity = c.identity)
    (p : Fin 4) (code : Nat) : d.KeepsApart ((d.onCircuit i f).respond p code rcOk []) :=
  (onCircuit_apart d i h).trans (respond_apart _ p _ _ _)

theorem commit_identity (c : Circuit) : c.commit.identity = c.identity := by
  unfold Circuit.commit
  split <;> rfl

theorem commitBaseline_apart (p : Fin 4) (body : List Byte) (d : Device) : d.KeepsApart (d.commitBaseline p body) :=
  onNamed_apart d p _ _ body fun i c _ => by
    split
    · exact respond_apart d p _ _ _
    · exact changeAnswered_apart d i commit_identity p _

theorem discardBaseline_apart (p : Fin 4) (body : List Byte) (d : Device) : d.KeepsApart (d.discardBaseline p body) :=
  onNamed_apart d p _ _ body fun i c _ => by
    split
    · exact respond_apart d p _ _ _
    · exact changeAnswered_apart d i (fun _ => by rfl) p _

theorem clearBaseline_apart (p : Fin 4) (body : List Byte) (d : Device) : d.KeepsApart (d.clearBaseline p body) :=
  onNamed_apart d p _ _ body fun i _ _ => changeAnswered_apart d i (fun _ => by rfl) p _

theorem scheduleWindow_apart (p : Fin 4) (body : List Byte) (d : Device) : d.KeepsApart (d.scheduleWindow p body) := by
  unfold Device.scheduleWindow
  split
  · exact respond_apart d p _ _ _
  split
  · exact respond_apart d p _ _ _
  split <;> exact .of_circuits rfl

theorem onWindow_apart (d : Device) (p : Fin 4) (code : Nat) (body : List Byte) {act : Fin 16 → Window → Device}
    (h : ∀ w x, d.KeepsApart (act w x)) : d.KeepsApart (d.onWindow p code body act) := by
  unfold Device.onWindow
  split
  · split
    · exact respond_apart d p _ _ _
    · exact h _ _
  · exact respond_apart d p _ _ _

theorem extendWindow_apart (p : Fin 4) (body : List Byte) (d : Device) : d.KeepsApart (d.extendWindow p body) :=
  onWindow_apart d p _ body fun w x => by
    dsimp only
    split
    · exact respond_apart d p _ _ _
    · split <;> exact .of_circuits rfl

theorem closeWindow_apart (p : Fin 4) (body : List Byte) (d : Device) : d.KeepsApart (d.closeWindow p body) :=
  onWindow_apart d p _ body fun w x => by
    split
    · exact respond_apart d p _ _ _
    · dsimp only
      split
      · exact .of_circuits rfl
      · exact .trans ((evaluate_apart _).after (by rfl)) (arbitrate_apart _ _ _)

theorem withdrawWindow_apart (p : Fin 4) (body : List Byte) (d : Device) : d.KeepsApart (d.withdrawWindow p body) :=
  onWindow_apart d p _ body fun w x => by split <;> exact .of_circuits rfl

theorem holdClock_apart (p : Fin 4) (d : Device) : d.KeepsApart (d.holdClock p) := by
  unfold Device.holdClock
  split <;> exact .of_circuits rfl

theorem releaseClock_apart (p : Fin 4) (d : Device) : d.KeepsApart (d.releaseClock p) := by
  unfold Device.releaseClock
  split
  · exact ((respond_apart d p _ _ _).trans (endHold_apart _)).trans (arbitrate_apart _ _ _)
  · exact respond_apart d p _ _ _

theorem setClock_apart (p : Fin 4) (body : List Byte) (d : Device) : d.KeepsApart (d.setClock p body) := by
  unfold Device.setClock
  dsimp only
  split
  · exact respond_apart d p _ _ _
  · split <;> exact .of_circuits rfl

theorem alignClock_apart (p : Fin 4) (d : Device) : d.KeepsApart (d.alignClock p) := by
  unfold Device.alignClock
  split
  · exact respond_apart d p _ _ _
  · exact .trans ((evaluate_apart _).after (by rfl)) (arbitrate_apart _ _ _)

theorem putTap_apart (d : Device) (t : Fin 16) (n : TapSettings) : d.KeepsApart (d.putTap t n) := by
  unfold Device.putTap
  dsimp only
  split <;> exact .of_circuits rfl

theorem setTap_apart (p : Fin 4) (body : List Byte) (d : Device) : d.KeepsApart (d.setTap p body) := by
  unfold Device.setTap
  split
  · split
    · exact respond_apart d p _ _ _
    · dsimp only
      split
      · exact ((putTap_apart d _ _).trans (respond_apart _ p _ _ _)).trans (arbitrate_apart _ _ _)
      · exact respond_apart d p _ _ _
  · exact respond_apart d p _ _ _

theorem applyImage_apart (d : Device) (im : Image) : d.KeepsApart (d.applyImage im) := .of_circuits rfl

theorem configure_apart (p : Fin 4) (body : List Byte) (d : Device) : d.KeepsApart (d.configure p body) := by
  unfold Device.configure
  split
  · exact respond_apart d p _ _ _
  split
  · exact respond_apart d p _ _ _
  · exact .thenIf (applyImage_apart d _) (respond_apart _ p _ _ _)

theorem storeConfig_apart (p : Fin 4) (d : Device) : d.KeepsApart (d.storeConfig p) := by
  unfold Device.storeConfig
  split
  · exact respond_apart d p _ _ _
  · split <;> exact .of_circuits rfl

theorem storeEnds_apart (stage : Option (Fin 5)) (d : Device) : d.KeepsApart (d.storeEnds stage) := by
  unfold Device.storeEnds
  split
  · exact .rfl' d
  split
  · exact .of_circuits rfl
  · exact (raiseCheck_apart _ _).after rfl

theorem setNodeId_apart (p : Fin 4) (body : List Byte) (d : Device) : d.KeepsApart (d.setNodeId p body) := by
  unfold Device.setNodeId
  dsimp only
  split <;> exact .of_circuits rfl

/-- R178: after a reset there is no record. -/
theorem reset_apart {d e : Device} (h : e.circuits = .all 256 none) : d.KeepsApart e := fun _ => empty_apart h

theorem loadEnds_apart (bytes : Option (List Byte)) (d : Device) : d.KeepsApart (d.loadEnds bytes) := by
  unfold Device.loadEnds
  split
  · exact .rfl' d
  split
  · exact .of_circuits rfl
  · exact applyImage_apart d _

theorem tapReadings_apart (readings : Table Int 16) (d : Device) : d.KeepsApart (d.tapReadings readings) := by
  unfold Device.tapReadings
  dsimp only
  split <;> exact .of_circuits rfl

theorem transaction_apart (p : Fin 4) (clocked : Nat) (d : Device) : d.KeepsApart (d.transaction p clocked) := by
  unfold Device.transaction
  split <;> exact .of_circuits rfl

theorem seek_apart (p : Fin 4) (body : List Byte) (d : Device) : d.KeepsApart (d.seek p body) := by
  unfold Device.seek
  split
  · exact respond_apart d p _ _ _
  · exact .trans (.thenIf (.rfl' d) (port_apart d p _)) (respond_apart _ p _ _ _)

theorem read_apart (p : Fin 4) (d : Device) : d.KeepsApart (d.read p) :=
  .trans (.thenIf (.rfl' d) (port_apart d p _)) (respond_apart _ p _ _ _)

theorem ackAttention_apart (p : Fin 4) (body : List Byte) (d : Device) : d.KeepsApart (d.ackAttention p body) := by
  unfold Device.ackAttention
  split <;> exact .of_circuits rfl

theorem setNotify_apart (p : Fin 4) (body : List Byte) (d : Device) : d.KeepsApart (d.setNotify p body) := by
  unfold Device.setNotify
  split <;> exact .of_circuits rfl

theorem clearCheck_apart (p : Fin 4) (d : Device) : d.KeepsApart (d.clearCheck p) := by
  unfold Device.clearCheck Device.dropCleared
  split
  · exact respond_apart d p _ _ _
  split
  · exact respond_apart d p _ _ _
  · split <;> exact .of_circuits rfl

/-- R164: a request with any code keeps the records apart. -/
theorem execute_apart (p : Fin 4) (code : Nat) (body : List Byte) (d : Device) :
    d.KeepsApart (d.execute p code body) := by
  unfold Device.execute
  split
  · exact request_apart _ p _ (fun d => respond_apart d p _ _ _) d
  · exact request_apart _ p _ (seek_apart p body) d
  · exact request_apart _ p _ (read_apart p) d
  · exact request_apart _ p _ (fun _ => .of_circuits (by rfl)) d
  · exact request_apart _ p _ (ackAttention_apart p body) d
  · exact request_apart _ p _ (setNotify_apart p body) d
  · exact request_apart _ p _ (clearCheck_apart p) d
  · exact request_apart _ p _ (fun _ => .of_circuits (by rfl)) d
  · exact request_apart _ p _ (register_apart p body) d
  · exact request_apart _ p _ (edit_apart p body) d
  · exact request_apart _ p _ (delete_apart p body) d
  · exact request_apart _ p _ (permitRequested_apart p body) d
  · exact request_apart _ p _ (confirm_apart p body) d
  · exact request_apart _ p _ (verify_apart p body) d
  · exact request_apart _ p _ (baseline_apart p body) d
  · exact request_apart _ p _ (commitBaseline_apart p body) d
  · exact request_apart _ p _ (discardBaseline_apart p body) d
  · exact request_apart _ p _ (clearBaseline_apart p body) d
  · exact request_apart _ p _ (scheduleWindow_apart p body) d
  · exact request_apart _ p _ (extendWindow_apart p body) d
  · exact request_apart _ p _ (closeWindow_apart p body) d
  · exact request_apart _ p _ (withdrawWindow_apart p body) d
  · exact request_apart _ p _ (holdClock_apart p) d
  · exact request_apart _ p _ (releaseClock_apart p) d
  · exact request_apart _ p _ (setClock_apart p body) d
  · exact request_apart _ p _ (alignClock_apart p) d
  · exact request_apart _ p _ (setTap_apart p body) d
  · exact request_apart _ p _ (configure_apart p body) d
  · exact request_apart _ p _ (storeConfig_apart p) d
  · exact request_apart _ p _ (setNodeId_apart p body) d
  · exact request_apart _ p _ (fun _ => reset_apart rfl) d
  · exact respond_apart d p _ _ _

theorem undecoded_apart (p : Fin 4) (bytes : List Byte) (d : Device) : d.KeepsApart (d.undecoded p bytes) := by
  unfold Device.undecoded
  split
  · exact .rfl' d
  split
  · exact port_apart d p _
  split
  · exact respond_apart d p _ _ _
  · exact execute_apart p _ _ d

/-! ### Every command and every step -/

/-- A command that acts on the part by an operation that keeps the records apart. -/
theorem on_apart {s t : State} {f : Device → Device} (h : s.on f = .next t) (k : ∀ d : Device, d.KeepsApart (f d)) :
    s.dev.KeepsApart t.dev := by
  cases h
  exact k s.dev

theorem exec_apart (c : Instr) (s t : State) (h : exec c s = .next t) : s.dev.KeepsApart t.dev := by
  cases c with
  | spiTransaction p clocked => exact on_apart h (transaction_apart p clocked)
  | undecodedRequest p bytes => exact on_apart h (undecoded_apart p bytes)
  | status p body => exact on_apart h (execute_apart p 0x01 body)
  | seek p body => exact on_apart h (execute_apart p 0x02 body)
  | read p body => exact on_apart h (execute_apart p 0x03 body)
  | readChanges p body => exact on_apart h (execute_apart p 0x04 body)
  | ackAttention p body => exact on_apart h (execute_apart p 0x05 body)
  | setNotify p body => exact on_apart h (execute_apart p 0x06 body)
  | clearCheck p body => exact on_apart h (execute_apart p 0x07 body)
  | portReset p body => exact on_apart h (execute_apart p 0x08 body)
  | registerCircuit p body => exact on_apart h (execute_apart p 0x10 body)
  | editCircuit p body => exact on_apart h (execute_apart p 0x11 body)
  | deleteCircuit p body => exact on_apart h (execute_apart p 0x12 body)
  | requestPermit p body => exact on_apart h (execute_apart p 0x13 body)
  | confirm p body => exact on_apart h (execute_apart p 0x14 body)
  | verify p body => exact on_apart h (execute_apart p 0x18 body)
  | baseline p body => exact on_apart h (execute_apart p 0x19 body)
  | commitBaseline p body => exact on_apart h (execute_apart p 0x1A body)
  | discardBaseline p body => exact on_apart h (execute_apart p 0x1B body)
  | clearBaseline p body => exact on_apart h (execute_apart p 0x1C body)
  | scheduleWindow p body => exact on_apart h (execute_apart p 0x20 body)
  | extendWindow p body => exact on_apart h (execute_apart p 0x21 body)
  | closeWindow p body => exact on_apart h (execute_apart p 0x22 body)
  | withdrawWindow p body => exact on_apart h (execute_apart p 0x23 body)
  | holdClock p body => exact on_apart h (execute_apart p 0x28 body)
  | releaseClock p body => exact on_apart h (execute_apart p 0x29 body)
  | setClock p body => exact on_apart h (execute_apart p 0x2A body)
  | alignClock p body => exact on_apart h (execute_apart p 0x2B body)
  | setTap p body => exact on_apart h (execute_apart p 0x30 body)
  | configure p body => exact on_apart h (execute_apart p 0x38 body)
  | storeConfig p body => exact on_apart h (execute_apart p 0x39 body)
  | storeEnd stage => exact on_apart h (unlessReset_apart (storeEnds_apart stage))
  | setNodeId p body => exact on_apart h (execute_apart p 0x3A body)
  | restart p body => exact on_apart h (execute_apart p 0x3B body)
  | powerOnReset => exact on_apart h fun _ => reset_apart rfl
  | rstAsserted => exact on_apart h fun _ => reset_apart rfl
  | rstReleased => exact on_apart h fun d => .thenIf (.rfl' d) (.of_circuits rfl)
  | loadEnd bytes => exact on_apart h (unlessReset_apart (loadEnds_apart bytes))
  | clockTick => exact on_apart h dividerTick_apart
  | ppsEdge line high => exact on_apart h (lineChange_apart line high)
  | ppsLost => exact on_apart h (unlessReset_apart ppsExpires_apart)
  | holdLimit => exact on_apart h (unlessReset_apart holdExpires_apart)
  | requestTimer i => exact on_apart h (unlessReset_apart (requestTimer_apart i))
  | tapReading readings => exact on_apart h (unlessReset_apart (tapReadings_apart readings))
  | codeFrame tap channel word level => exact on_apart h (unlessReset_apart fun _ => .of_circuits rfl)
  | freezeInChange line high => exact on_apart h (lineChange_apart line high)
  | eligibleAfter i kind => exact on_apart h (unlessReset_apart (eligiblePasses_apart i kind))
  | preemptTime i kind => exact on_apart h (unlessReset_apart (preemptPasses_apart i kind))
  | announce g cid run kind hop n dwell =>
    exact on_apart h (unlessReset_apart (receive_apart g _ (announced_apart g cid run kind hop n dwell)))
  | armed g cid run => exact on_apart h (unlessReset_apart (receive_apart g _ (armedArrives_apart g cid run)))
  | armedWait slot =>
    exact on_apart h (unlessReset_apart (onWaitIn_apart slot _ fun d r =>
      (armedExpires_apart d slot r).trans (arbitrate_apart _ _ _)))
  | dwell slot =>
    exact on_apart h (unlessReset_apart (onWaitIn_apart slot _ fun d r =>
      (dwellEnds_apart d slot r).trans (arbitrate_apart _ _ _)))
  | stop g cid run => exact on_apart h (unlessReset_apart (receive_apart g _ (stopArrives_apart g cid run)))
  | stopWait slot =>
    exact on_apart h (unlessReset_apart (onWaitIn_apart slot _ fun d r =>
      (cancelDown_apart d slot r).trans (arbitrate_apart _ _ _)))
  | report g cid run truncated hops =>
    exact on_apart h (unlessReset_apart (receive_apart g _ (reportArrives_apart g cid run truncated hops)))
  | reportWait slot =>
    exact on_apart h (unlessReset_apart (onWaitIn_apart slot _ fun d r => reportExpires_apart d slot r))
  | refuse g cid run hop reason =>
    exact on_apart h (unlessReset_apart (receive_apart g _ (refuseArrives_apart g cid run hop reason)))
  | outcome g o => exact on_apart h (unlessReset_apart (receive_apart g _ (outcomeArrives_apart g o)))
  | outcomeWait slot =>
    exact on_apart h (unlessReset_apart (onWaitIn_apart slot _ fun d _ =>
      (dropRun_apart d slot).trans (arbitrate_apart _ _ _)))
  | cancel g cid run => exact on_apart h (unlessReset_apart (receive_apart g _ (cancelArrives_apart g cid run)))
  | request g cid kind => exact on_apart h (unlessReset_apart (receive_apart g _ (requestArrives_apart g cid kind)))
  | hello g node degree => exact on_apart h (unlessReset_apart (helloArrives_apart g node degree))
  | frameDiscarded g bytes => exact on_apart h (framesArrive_apart g bytes)
  | silenceDeadline g => exact on_apart h (unlessReset_apart (silencePasses_apart g))
  | helloPeriod g => exact on_apart h (unlessReset_apart fun d => .thenIf (.rfl' d) (.of_circuits rfl))
  | linkTransmit g => exact on_apart h (unlessReset_apart fun d => link_apart d g _)
  | notifyPulseEnd p => exact on_apart h (unlessReset_apart fun d => onExpiry_apart d _ fun d => port_apart d p _)

/-- Settles O56: each command is built from operations that keep the records apart, registrations and edits by the
tests of R10, R15 and R21. -/
theorem circuitsStayApart : Obligations.CircuitsStayApart := by
  intro s t apart h
  unfold step at h
  split at h
  · exact on_apart h (f := Device.idle) (fun _ => .of_circuits rfl) apart
  next c rest _ => exact exec_apart c { s with pending := rest } t h apart

end Sys2Proof.Machine

/-! SUPPORT. Registrations: how a body is read and in which order it is judged. -/

namespace Sys2Proof.Machine

/-! ### A request of a port of either role reaches its block (R164) -/

/-- R164: a command with the length it calls for is what its block does with it. -/
theorem on_request_any {s : State} {p : Fin 4} {ok : Bool} (h : s.dev.takesAny p = true) (length : ok = true)
    (code : Nat) (act : Device → Device) :
    (s.on fun d => d.request ⟨code, false, false⟩ p ok act) = .next (s.put (act s.dev)) := by
  rw [on_eq_put, length, request_any h]

/-- R182: a number of one byte. -/
theorem be_one (v : Nat) : be 1 v = [BitVec.ofNat 8 v] := by simp [be]

/-! ### The fields of a registration (R7, R10) -/

/-- R5: the ingress a role calls for, read by role. -/
theorem ingressFor_by_role {r : NodeRole} {v : Nat} {x : Place} : ingressFor r v = some x ↔
    (r = .head → ∃ t : Fin 16, v = t.val ∧ x = .tap t) ∧ (r ≠ .head → ∃ g : Fin 4, v = g.val ∧ x = .degree g) := by
  rw [ingressFor_eq_some]
  by_cases e : r = .head <;> simp [e]

/-- R5: the egress a role calls for, read by role. -/
theorem egressFor_by_role {r : NodeRole} {v : Nat} {x : Place} : egressFor r v = some x ↔
    (r = .tail → ∃ t : Fin 16, v = t.val ∧ x = .tap t) ∧ (r ≠ .tail → ∃ g : Fin 4, v = g.val ∧ x = .degree g) := by
  rw [egressFor_eq_some]
  by_cases e : r = .tail <;> simp [e]

/-- R7, R184: a soft field of one byte, its default for FFh. -/
theorem softValue_softByte {lo hi dflt b x : Nat} (hb : b < 256) (hi' : hi < 255) (range : lo ≤ dflt ∧ dflt ≤ hi) :
    softValue lo hi dflt (softByte b) = some x ↔ x = (if b = 255 then dflt else b) ∧ lo ≤ x ∧ x ≤ hi := by
  rw [softValue_eq_some (by omega)]
  rcases softByte_eq hb with ⟨e, marked⟩ | ⟨e, plain, ne⟩
  · rw [marked, if_pos e]; omega
  · rw [plain, if_neg e]; omega

/-- R7, R184: a coded soft field of one byte, its default for FFh. -/
theorem softCode_softByte {α : Type} {l : List α} {dflt x : α} {b : Nat} (hb : b < 256) (hl : l.length ≤ 255) :
    softCode l dflt (softByte b) = some x ↔ (b = 255 ∧ x = dflt) ∨ l[b]? = some x := by
  rw [softCode_eq_some (by omega)]
  rcases softByte_eq hb with ⟨e, marked⟩ | ⟨e, plain, ne⟩
  · have none255 : l[255]? = none := List.getElem?_eq_none hl
    have noneMark : l[65535]? = none := List.getElem?_eq_none (by omega)
    rw [marked, e]
    simp [none255, noneMark]
  · simp [plain, e, ne]

/-- R10: a body gives a description exactly where each of its fields is read and lies in its range. -/
theorem registerDesc_eq_some {body : List Byte} {x : Desc} : registerDesc body = some x ↔
    nodeRoleTable[byteAt body 3]? = some x.role ∧ ingressFor x.role (byteAt body 7) = some x.ingress ∧
    egressFor x.role (byteAt body 8) = some x.egress ∧
    softValue 1 20 5 (softByte (byteAt body 9)) = some x.dwell ∧
    softValue 1 100 15 (softByte (byteAt body 10)) = some x.tolerance ∧
    softCode policyTable .fail (softByte (byteAt body 11)) = some x.policy ∧
    softCode safeTable .withdrawAuto (softByte (byteAt body 12)) = some x.safe ∧
    (x.k = byteAt body 4 ∧ x.n = byteAt body 5 ∧ x.channel = byteAt body 6) ∧
    fieldAt body 0 3 ≠ 0 ∧ x.k ≤ 15 ∧ 2 ≤ x.n ∧ x.n ≤ 16 ∧ 1 ≤ x.channel ∧ x.channel ≤ 96 := by
  unfold registerDesc
  simp only [Option.bind_eq_bind, Option.bind_eq_some_iff]
  constructor
  · rintro ⟨role, hrole, ingress, hin, egress, hout, dwell, hdwell, tolerance, htol, policy, hpolicy, safe, hsafe, h⟩
    split at h
    · cases h
      exact ⟨hrole, hin, hout, hdwell, htol, hpolicy, hsafe, ⟨rfl, rfl, rfl⟩, ‹_›⟩
    · cases h
  · rintro ⟨hrole, hin, hout, hdwell, htol, hpolicy, hsafe, ⟨hk, hn, hchannel⟩, ranges⟩
    refine ⟨_, hrole, _, hin, _, hout, _, hdwell, _, htol, _, hpolicy, _, hsafe, ?_⟩
    rw [hk, hn, hchannel] at ranges
    rw [if_pos ranges, ← hk, ← hn, ← hchannel]

/-! ### The judgement of a registration (R10) -/

theorem judgeRegistration_path {d : Device} {cid : Nat} {x : Desc} (h : x.agrees = false ∨ d.wellFormed x = false) :
    d.judgeRegistration cid x = .inr 0x11 := by
  unfold Device.judgeRegistration
  rcases h with h | h <;> simp [h, rcBadArgument]

theorem judgeRegistration_conflict {d : Device} {cid : Nat} {x : Desc} (agrees : x.agrees = true)
    (formed : d.wellFormed x = true) (h : (d.findCid cid).isSome = true ∨ d.conflicts none x = true) :
    d.judgeRegistration cid x = .inr 0x15 := by
  unfold Device.judgeRegistration
  by_cases found : (d.findCid cid).isSome = true
  · simp [agrees, formed, found, rcConflict]
  · simp [agrees, formed, found, h.resolve_left found, rcConflict]

/-- R10: a registration that passes the other tests finds no free entry. -/
theorem judgeRegistration_full {d : Device} {cid : Nat} {x : Desc} (agrees : x.agrees = true)
    (formed : d.wellFormed x = true) (unused : d.findCid cid = none) (clear : d.conflicts none x = false)
    (full : d.circuits.firstFree = none) : d.judgeRegistration cid x = .inr 0x14 := by
  simp [Device.judgeRegistration, agrees, formed, unused, clear, full, rcTableFull]

/-- R10: a registration that passes every test takes the lowest free entry. -/
theorem judgeRegistration_passes {d : Device} {cid : Nat} {x : Desc} {i : Fin 256} (agrees : x.agrees = true)
    (formed : d.wellFormed x = true) (unused : d.findCid cid = none) (clear : d.conflicts none x = false)
    (free : d.circuits.firstFree = some i) : d.judgeRegistration cid x = .inl i := by
  simp [Device.judgeRegistration, agrees, formed, unused, clear, free]

theorem register_outOfRange {body : List Byte} (h : registerDesc body = none) (d : Device) (p : Fin 4) :
    d.register p body = d.respond p 0x10 0x11 [] := by
  simp only [Device.register, h, rcBadArgument]

theorem register_refused {body : List Byte} {x : Desc} {d : Device} {rc : Nat} (h : registerDesc body = some x)
    (judged : d.judgeRegistration (fieldAt body 0 3) x = .inr rc) (p : Fin 4) :
    d.register p body = d.respond p 0x10 rc [] := by
  simp only [Device.register, h, judged]

theorem register_made {body : List Byte} {x : Desc} {d : Device} {i : Fin 256} (h : registerDesc body = some x)
    (judged : d.judgeRegistration (fieldAt body 0 3) x = .inl i) (p : Fin 4) :
    d.register p body = (d.create i (newCircuit (fieldAt body 0 3) (d.ownerFor p) x)).respond p 0x10 0x00
      [BitVec.ofNat 8 i.val] := by
  simp only [Device.register, h, judged, be_one, rcOk]

theorem exec_registerCircuit {s : State} {p : Fin 4} {body : List Byte} (h : s.dev.takesAny p = true)
    (length : body.length = 13) : exec (.registerCircuit p body) s = .next (s.put (s.dev.register p body)) :=
  on_request_any h (by simp [length]) 0x10 (Device.register p body)

/-- Settles O14: the fields by `registerDesc_eq_some`, the tests in the order of `judgeRegistration`. -/
theorem registrationIsJudgedInOrder : Obligations.RegistrationIsJudgedInOrder := by
  refine ⟨fun body x => ?_, fun s p body refused takes length answers => ?_⟩
  · rw [registerDesc_eq_some, ingressFor_by_role, egressFor_by_role,
      softValue_softByte (byteAt_lt _ _) (by omega) (by omega),
      softValue_softByte (byteAt_lt _ _) (by omega) (by omega),
      softCode_softByte (byteAt_lt _ _) (by decide), softCode_softByte (byteAt_lt _ _) (by decide)]
    constructor
    · rintro ⟨role, ⟨inTap, inDegree⟩, ⟨outTap, outDegree⟩, ⟨dwell, dwellLow, dwellHigh⟩, ⟨tolerance, tolLow, tolHigh⟩,
        policy, safe, ⟨hk, hn, hchannel⟩, cid, k15, n2, n16, channel1, channel96⟩
      exact ⟨cid, role, hk, k15, hn, n2, n16, hchannel, channel1, channel96, inTap, inDegree, outTap, outDegree,
        dwell, dwellLow, dwellHigh, tolerance, tolLow, tolHigh, policy, safe⟩
    · rintro ⟨cid, role, hk, k15, hn, n2, n16, hchannel, channel1, channel96, inTap, inDegree, outTap, outDegree,
        dwell, dwellLow, dwellHigh, tolerance, tolLow, tolHigh, policy, safe⟩
      exact ⟨role, ⟨inTap, inDegree⟩, ⟨outTap, outDegree⟩, ⟨dwell, dwellLow, dwellHigh⟩, ⟨tolerance, tolLow, tolHigh⟩,
        policy, safe, ⟨hk, hn, hchannel⟩, cid, k15, n2, n16, channel1, channel96⟩
  · simp only [exec_registerCircuit takes length] at answers
    refine ⟨fun none => (answers _).mpr ?_, fun x hx => ⟨fun path => (answers _).mpr ?_, fun agrees formed =>
      ⟨fun taken => (answers _).mpr ?_, fun unused clear full => (answers _).mpr ?_⟩⟩⟩
    · rw [register_outOfRange none]
    · rw [register_refused hx (judgeRegistration_path path)]
    · rw [register_refused hx (judgeRegistration_conflict agrees formed (taken.imp_left ?_))]
      rintro ⟨i, c, hc, e⟩
      rw [Option.isSome_iff_ne_none]
      exact fun none => findCid_eq_none.mp none i c hc e
    · rw [register_refused hx (judgeRegistration_full agrees formed unused clear (Table.firstFree_none.mpr full))]

end Sys2Proof.Machine

/-! SUPPORT. The calendar takes a record, and what a registration makes. -/

namespace Sys2Proof.Machine

/-! ### A record handed to the calendar (R12, R65) -/

/-- What stands in the indices of a table whose things meet a test. -/
theorem mem_indices {α : Type} {n : Nat} {t : Table (Option α) n} {p : α → Bool} {w : Fin n} :
    w ∈ t.indices (fun x => x.any p) ↔ ∃ y, t.get w = some y ∧ p y = true := by
  simp [Table.indices, Option.any_eq_true_iff_get]
  cases t.get w <;> simp

/-- R65: the windows that a record handed to the calendar joins. -/
def Device.joinable (d : Device) (i : Fin 256) (x : Desc) : List (Fin 16) :=
  d.windows.indices fun w => w.any fun y => y.state == .opened && d.inScope y x && !y.members.contains i

/-- R65: a window is joined exactly where it is OPEN, covers the description and does not list the circuit. -/
theorem mem_joinable {d : Device} {i : Fin 256} {x : Desc} {w : Fin 16} : w ∈ d.joinable i x ↔
    ∃ y, d.windows.get w = some y ∧ y.state = .opened ∧ d.inScope y x = true ∧ i ∉ y.members := by
  simp [Device.joinable, mem_indices, and_assoc]

/-- R65: the windows with the circuit a member of each that it joins. -/
def Device.joined (d : Device) (i : Fin 256) (x : Desc) : Table (Option Window) 16 :=
  d.windows.mapIdx fun w y => if (d.joinable i x).contains w then y.map (Window.addMember i) else y

theorem joined_get (d : Device) (i : Fin 256) (x : Desc) (w : Fin 16) : (d.joined i x).get w =
    if w ∈ d.joinable i x then (d.windows.get w).map (Window.addMember i) else d.windows.get w := by
  simp [Device.joined]

/-- R64, R65: the hold change that a record handed to the calendar is told of. -/
def Device.joining (d : Device) (i : Fin 256) (x : Desc) : HoldChange :=
  ⟨d.joinable i x, [], Device.holdSet { d with windows := d.joined i x } i⟩

/-- R12: a record that joins no window is left alone. -/
theorem calendarTakes_none {d : Device} {i : Fin 256} {c : Circuit} (hc : d.circuit i = some c)
    (h : d.joinable i c.desc = []) : d.calendarTakes i = d := by
  simp only [Device.calendarTakes, hc]
  exact if_pos (by rw [List.isEmpty_iff]; exact h)

/-- R12, R65: a record that joins a window is a member of each that it joins, and is told of the hold change. -/
theorem calendarTakes_some {d : Device} {i : Fin 256} {c : Circuit} (hc : d.circuit i = some c)
    (h : d.joinable i c.desc ≠ []) :
    d.calendarTakes i = Device.holdChange { d with windows := d.joined i c.desc } i (d.joining i c.desc) := by
  simp only [Device.calendarTakes, hc]
  exact if_neg (by rw [List.isEmpty_iff]; exact h)

/-- R64: after the joining, the hold set is of the OPEN windows that list the circuit. -/
theorem mem_joining_held {d : Device} {i : Fin 256} {x : Desc} {w : Fin 16} : w ∈ (d.joining i x).held ↔
    ∃ y, (d.joined i x).get w = some y ∧ y.state = .opened ∧ i ∈ y.members := by
  simp [Device.joining, Device.holdSet, mem_indices]

/-- R65: a window that is joined stands in the hold set. -/
theorem joinable_held {d : Device} {i : Fin 256} {x : Desc} {w : Fin 16} (h : w ∈ d.joinable i x) :
    w ∈ (d.joining i x).held := by
  obtain ⟨y, hy, opened, -, -⟩ := mem_joinable.mp h
  refine mem_joining_held.mpr ⟨y.addMember i, ?_, opened, mem_insertIdx.mpr (.inl rfl)⟩
  rw [joined_get, if_pos h, hy, Option.map_some]

/-- R70: a circuit that no window lists has no window that held it before it joins. -/
theorem joining_before {d : Device} {i : Fin 256} {x : Desc}
    (h : ∀ w y, d.windows.get w = some y → y.state = .opened → i ∉ y.members) : (d.joining i x).before = [] := by
  rw [HoldChange.before, List.filter_eq_nil_iff]
  intro w hw
  rw [List.mem_append] at hw
  have held : w ∈ (d.joining i x).held := hw.resolve_right List.not_mem_nil
  obtain ⟨y, hy, opened, listed⟩ := mem_joining_held.mp held
  by_cases joins : w ∈ d.joinable i x
  · simp [Device.joining, joins]
  · rw [joined_get, if_neg joins] at hy
    exact absurd listed (h w y hy opened)

/-- R70: a hold change of a circuit that was not held and now is begins a hold. -/
theorem holdChange_begins (d : Device) (i : Fin 256) {h : HoldChange} (before : h.before = []) (held : h.held ≠ []) :
    d.holdChange i h = (d.holdBegins i).attendChange i (d.circuit i) := by
  have e : h.held.isEmpty = false := by simpa using held
  simp only [Device.holdChange, before, List.isEmpty_nil, e]

/-- R71: a circuit without a run is not to be abandoned. -/
theorem abandonRun_none {d : Device} {i : Fin 256} (h : d.runOf i = none) (reason : Reason) :
    d.abandonRun i reason = d := by
  simp only [Device.abandonRun, h]

/-- The record put at an index. -/
theorem circuit_set_self (d : Device) (i : Fin 256) (o : Option Circuit) :
    Device.circuit { d with circuits := d.circuits.set i o } i = o := Table.get_set_self _ _ _

/-- R71: a record that enters HELD. -/
def Circuit.enterHold (c : Circuit) : Circuit :=
  { c with
    retained := c.service == .inService && c.desc.safe == .retain && c.permit
    attempts := 0, requestDeadline := none, service := .held }

/-- R71: a hold begins on a record without a run. -/
theorem holdBegins_eq {d : Device} {i : Fin 256} {c : Circuit} (hc : d.circuit i = some c) (h : d.runOf i = none) :
    d.holdBegins i = { d with circuits := d.circuits.set i (some c.enterHold) } := by
  unfold Device.holdBegins
  rw [onCircuit_eq hc]
  dsimp only
  rw [abandonRun_none (by exact h), onCircuit_eq (by exact circuit_set_self _ _ _), Table.set_set]
  rfl

/-- R12, R65, R71: a record without a run that no OPEN window lists joins one: its hold begins, with CIRCUIT attention
where that shows. -/
theorem calendarTakes_holds {d : Device} {i : Fin 256} {c : Circuit} (hc : d.circuit i = some c)
    (joins : d.joinable i c.desc ≠ []) (unrun : d.runOf i = none)
    (unlisted : ∀ w y, d.windows.get w = some y → y.state = .opened → i ∉ y.members)
    (shows : c.face ≠ c.enterHold.face) :
    d.calendarTakes i = Device.attendCircuit { d with
      windows := d.joined i c.desc
      circuits := d.circuits.set i (some c.enterHold) } c.owner i := by
  obtain ⟨w, hw⟩ := List.exists_mem_of_ne_nil _ joins
  have before : Device.circuit { d with windows := d.joined i c.desc } i = some c := hc
  rw [calendarTakes_some hc joins,
    holdChange_begins _ i (joining_before unlisted) (List.ne_nil_of_mem (joinable_held hw)),
    holdBegins_eq (d := { d with windows := d.joined i c.desc }) hc unrun, before,
    attendChange_eq (circuit_set_self { d with windows := d.joined i c.desc } i (some c.enterHold)),
    if_neg (by simpa using shows)]
  rfl

/-! ### The record of a registration (R11, R12) -/

/-- R69: CIRCUIT attention touches the ports alone and reaches each that the owner stands for. -/
theorem attendCircuit_eq (d : Device) (o : Owner) (i : Fin 256) :
    ∃ ports, d.attendCircuit o i = { d with ports := ports } ∧ ∀ q, d.ownedBy o q = true →
      hasAtt (ports.get q).attention .circuit = true ∧ i ∈ (ports.get q).changed :=
  ⟨_, rfl, fun _ owns => attendCircuit_sets owns i⟩

/-- R53: the scope of a window follows from the tap settings alone. -/
theorem inScope_congr {d e : Device} (h : e.taps = d.taps) (w : Window) (x : Desc) : e.inScope w x = d.inScope w x := by
  unfold Device.inScope Device.references Device.ingressTap Device.egressTap Device.placeTap Device.lineTap
    Device.tapSettings
  rw [h]

/-- R11: a registration that no OPEN window covers leaves the new record as it was made. -/
theorem create_uncovered {d : Device} {i : Fin 256} {c : Circuit} (h : d.uncovered c.desc) :
    d.create i c = Device.attendCircuit { d with circuits := d.circuits.set i (some c) } c.owner i := by
  unfold Device.create
  rw [calendarTakes_none (circuit_set_self d i (some c))]
  refine List.eq_nil_iff_forall_not_mem.mpr fun w hw => ?_
  obtain ⟨y, hy, opened, scope, -⟩ := mem_joinable.mp hw
  have clear : Device.inScope { d with circuits := d.circuits.set i (some c) } y c.desc = false := h w y hy opened
  exact Bool.false_ne_true (clear.symm.trans scope)

/-- R12, R65, R69: a registration that an OPEN window covers joins each that does, and its record is HELD; besides
entry and windows it touches the ports alone, and its owner is told. -/
theorem create_covered {d : Device} {i : Fin 256} {c : Circuit} (fresh : c.service = .unproven)
    (covered : ∃ w y, d.windows.get w = some y ∧ y.state = .opened ∧ d.inScope y c.desc = true)
    (unlisted : ∀ w y, d.windows.get w = some y → y.state = .opened → i ∉ y.members) (unrun : d.runOf i = none) :
    ∃ ports, d.create i c = { d with
        windows := d.joined i c.desc, circuits := d.circuits.set i (some c.enterHold), ports := ports } ∧
      ∀ q, d.ownedBy c.owner q = true →
        hasAtt (ports.get q).attention .circuit = true ∧ i ∈ (ports.get q).changed := by
  obtain ⟨w, y, hy, opened, scope⟩ := covered
  have joins : w ∈ Device.joinable { d with circuits := d.circuits.set i (some c) } i c.desc :=
    mem_joinable.mpr ⟨y, hy, opened, (inScope_congr (d := d) rfl y c.desc).trans scope, unlisted w y hy opened⟩
  have taken := calendarTakes_holds (circuit_set_self d i (some c)) (List.ne_nil_of_mem joins) unrun unlisted
    (by simp [Circuit.face, Circuit.enterHold, fresh])
  obtain ⟨held, first, -⟩ := attendCircuit_eq { d with
    windows := d.joined i c.desc, circuits := d.circuits.set i (some c.enterHold) } c.owner i
  obtain ⟨ports, second, told⟩ := attendCircuit_eq { d with
    windows := d.joined i c.desc, circuits := d.circuits.set i (some c.enterHold), ports := held } c.owner i
  refine ⟨ports, ?_, told⟩
  rw [Table.set_set] at taken
  rw [Device.create, taken]
  exact (congrArg (Device.attendCircuit · c.owner i) first).trans second

/-- R65: a covering OPEN window is joined by a circuit that no OPEN window lists, and no other is. -/
theorem joined_unlisted {d : Device} {i : Fin 256} {x : Desc}
    (unlisted : ∀ w y, d.windows.get w = some y → y.state = .opened → i ∉ y.members) (w : Fin 16) :
    (d.joined i x).get w = (d.windows.get w).map fun y =>
      if y.state = .opened ∧ d.inScope y x = true then { y with members := insertIdx i y.members } else y := by
  rw [joined_get]
  cases hy : d.windows.get w with
  | none => simp
  | some y =>
    have joins : w ∈ d.joinable i x ↔ y.state = .opened ∧ d.inScope y x = true := by
      rw [mem_joinable]
      constructor
      · rintro ⟨z, hz, opened, scope, -⟩
        rw [hy] at hz; cases hz
        exact ⟨opened, scope⟩
      · rintro ⟨opened, scope⟩
        exact ⟨y, hy, opened, scope, unlisted w y hy opened⟩
    simp only [joins, Option.map_some]
    split <;> rfl

/-- Settles O13: the lowest free entry by `judgeRegistration_passes`, and what the calendar does with the new record by
whether an OPEN window covers it. -/
theorem registrationCreatesTheRecord : Obligations.RegistrationCreatesTheRecord := by
  rintro ⟨pending, d⟩ p body x i c owner takes length hx agrees formed unused clear free hOwner hCircuit
  have new : c = newCircuit (fieldAt body 0 3) owner x := hCircuit
  clear hCircuit
  dsimp only at *
  have made : exec (.registerCircuit p body) ⟨pending, d⟩ =
      .next (State.put ⟨pending, d⟩ ((d.create i c).respond p 0x10 0x00 [BitVec.ofNat 8 i.val])) := by
    rw [exec_registerCircuit takes length,
      register_made hx (judgeRegistration_passes agrees formed unused clear free), new, hOwner]
    rfl
  rw [made]
  subst new
  constructor
  · intro uncovered
    rw [create_uncovered uncovered]
    rfl
  · intro covered unlisted unrun
    obtain ⟨ports, covering, told⟩ :=
      create_covered (c := newCircuit (fieldAt body 0 3) owner x) rfl covered unlisted unrun
    rw [covering]
    exact ⟨_, rfl, rfl, joined_unlisted unlisted, told, rfl⟩

end Sys2Proof.Machine

/-! SUPPORT. Commands about a circuit: the circuit named and the right to it. -/

namespace Sys2Proof.Machine

/-! ### The circuit named and the right to it (R2) -/

/-- R2: the record named is the one at the index named, if it has the circuit id named. -/
theorem named_eq_some {d : Device} {body : List Byte} {c : Circuit} :
    d.named body = some c ↔ d.circuit (namedIndex body) = some c ∧ c.cid = namedCid body := by
  simp [Device.named, Option.filter_eq_some_iff]

/-- R2, R3: who has a right to a command about a record. -/
theorem mayAct_iff {d : Device} {p : Fin 4} {o : Owner} {right : Right} : d.mayAct p o right = true ↔
    o = .port p ∨ (d.isLine p = true ∧ (o = .line ∨ right = .ownerOrLine)) := by
  cases right <;> simp [Device.mayAct, and_comm]

theorem onNamed_notFound {d : Device} {body : List Byte} (h : d.named body = none) (p : Fin 4) (code : Nat)
    (right : Right) (act : Fin 256 → Circuit → Device) :
    d.onNamed p code right body act = d.respond p code 0x13 [] := by
  simp only [Device.onNamed, h, rcNotFound]

theorem onNamed_notPermitted {d : Device} {body : List Byte} {c : Circuit} {p : Fin 4} {right : Right}
    (h : d.named body = some c) (forbidden : d.mayAct p c.owner right = false) (code : Nat)
    (act : Fin 256 → Circuit → Device) : d.onNamed p code right body act = d.respond p code 0x12 [] := by
  simp only [Device.onNamed, h, forbidden, rcNotPermitted]
  rfl

/-- R184: a flag byte below 2 is a flag. -/
theorem flagOf_of_lt {v : Nat} (h : v < 2) : flagOf v = some (decide (v = 1)) := by
  unfold flagOf
  split
  · subst v; rfl
  · rw [if_pos (by omega), decide_eq_true (by omega)]

/-- R2: a command about a circuit answers what its judgement of the circuit named answers. -/
def NamedCommand (s : State) (p : Fin 4) (body : List Byte) (code : Nat) (right : Right) (cmd : Instr) : Prop :=
  ∃ act, exec cmd s = .next (s.put (s.dev.onNamed p code right body act))

/-- R2: the commands about a circuit, by the length of their body. -/
theorem namedCommand_of_length {s : State} {p : Fin 4} {body : List Byte} (h : s.dev.takesAny p = true)
    (length : body.length = 4) :
    NamedCommand s p body 0x12 .owner (.deleteCircuit p body) ∧ NamedCommand s p body 0x14 .owner (.confirm p body) ∧
    NamedCommand s p body 0x19 .ownerOrLine (.baseline p body) ∧
    NamedCommand s p body 0x1A .ownerOrLine (.commitBaseline p body) ∧
    NamedCommand s p body 0x1B .ownerOrLine (.discardBaseline p body) ∧
    NamedCommand s p body 0x1C .ownerOrLine (.clearBaseline p body) := by
  have ok : (body.length == 4) = true := by simp [length]
  exact ⟨⟨_, on_request_any h ok 0x12 (Device.delete p body)⟩, ⟨_, on_request_any h ok 0x14 (Device.confirm p body)⟩,
    ⟨_, on_request_any h ok 0x19 (Device.baseline p body)⟩,
    ⟨_, on_request_any h ok 0x1A (Device.commitBaseline p body)⟩,
    ⟨_, on_request_any h ok 0x1B (Device.discardBaseline p body)⟩,
    ⟨_, on_request_any h ok 0x1C (Device.clearBaseline p body)⟩⟩

theorem namedCommand_requestPermit {s : State} {p : Fin 4} {body : List Byte} (h : s.dev.takesAny p = true)
    (length : body.length = 5) (flag : byteAt body 4 < 2) :
    NamedCommand s p body 0x13 .owner (.requestPermit p body) := by
  obtain ⟨act, judged⟩ : ∃ act, s.dev.permitRequested p body = s.dev.onNamed p 0x13 .owner body act := by
    simp only [Device.permitRequested, onOffOf, flagOf_of_lt flag, Option.map_some]
    exact ⟨_, rfl⟩
  exact ⟨act, judged ▸ on_request_any h (by simp [length]) 0x13 (Device.permitRequested p body)⟩

/-- R2, R89: VERIFY is judged by R2 first, and then by who may set the urgent flag. -/
theorem exec_verify {s : State} {p : Fin 4} {body : List Byte} (h : s.dev.takesAny p = true) (length : body.length = 5)
    (flag : byteAt body 4 < 2) : exec (.verify p body) s = .next (s.put
      (s.dev.onNamed p 0x18 .ownerOrLine body fun i c =>
        if s.dev.mayUrge p (decide (byteAt body 4 = 1)) then
          s.dev.askRun p 0x18 i c .verify (if decide (byteAt body 4 = 1) then .urgent else .low)
        else s.dev.respond p 0x18 0x12 [])) := by
  refine (on_request_any h (by simp [length]) 0x18 (Device.verify p body)).trans ?_
  simp only [Device.verify, flagOf_of_lt flag, rcNotPermitted]

theorem exec_editCircuit {s : State} {p : Fin 4} {body : List Byte} (h : s.dev.takesAny p = true)
    (length : editLengthOk body = true) : exec (.editCircuit p body) s = .next (s.put (s.dev.edit p body)) :=
  on_request_any h length 0x11 (Device.edit p body)

theorem namedCommand_editCircuit {s : State} {p : Fin 4} {body : List Byte} (h : s.dev.takesAny p = true)
    (length : editLengthOk body = true) (flag : byteAt body 4 < 2) :
    NamedCommand s p body 0x11 .owner (.editCircuit p body) := by
  obtain ⟨act, judged⟩ : ∃ act, s.dev.edit p body = s.dev.onNamed p 0x11 .owner body act := by
    simp only [Device.edit, flagOf_of_lt flag]
    exact ⟨_, rfl⟩
  exact ⟨act, judged ▸ exec_editCircuit h length⟩

/-- Settles O15: every command about a circuit is `onNamed`, which is judged in R2's order; VERIFY goes on to judge the
urgent flag. -/
theorem circuitIsNamedTwiceAndOwned : Obligations.CircuitIsNamedTwiceAndOwned := by
  intro s p body code right cmd takes listed
  have command : NamedCommand s p body code right cmd := by
    rcases listed with ⟨length, mem⟩ | ⟨length, flag, mem⟩ | ⟨length, flag, e⟩
    · obtain ⟨delete, confirm, baseline, commit, discard, clear⟩ := namedCommand_of_length takes length
      simp only [List.mem_cons, Prod.mk.injEq, List.not_mem_nil, or_false] at mem
      rcases mem with ⟨rfl, rfl, rfl⟩ | ⟨rfl, rfl, rfl⟩ | ⟨rfl, rfl, rfl⟩ | ⟨rfl, rfl, rfl⟩ | ⟨rfl, rfl, rfl⟩ |
        ⟨rfl, rfl, rfl⟩
      · exact delete
      · exact confirm
      · exact baseline
      · exact commit
      · exact discard
      · exact clear
    · simp only [List.mem_cons, Prod.mk.injEq, List.not_mem_nil, or_false] at mem
      rcases mem with ⟨rfl, rfl, rfl⟩ | ⟨rfl, rfl, rfl⟩
      · exact namedCommand_requestPermit takes length flag
      · exact ⟨_, exec_verify takes length flag⟩
    · simp only [Prod.mk.injEq] at e
      obtain ⟨rfl, rfl, rfl⟩ := e
      exact namedCommand_editCircuit takes length flag
  obtain ⟨act, runs⟩ := command
  refine ⟨fun c => named_eq_some, fun unknown => ?_, fun c hc => ⟨fun forbidden => ?_, ?_⟩⟩
  · rw [runs, onNamed_notFound unknown]
  · rw [runs, onNamed_notPermitted hc (Bool.eq_false_iff.mpr fun may => forbidden (mayAct_iff.mp may))]
  · intro owned verifying urgent tenant
    have isVerify : cmd = .verify p body ∧ body.length = 5 := by
      subst verifying
      rcases listed with ⟨_, mem⟩ | ⟨length, _, mem⟩ | ⟨_, _, e⟩
      · simp at mem
      · obtain ⟨-, e⟩ : right = .ownerOrLine ∧ cmd = .verify p body := by simpa using mem
        exact ⟨e, length⟩
      · simp at e
    obtain ⟨rfl, length⟩ := isVerify
    have may : s.dev.mayName p body .ownerOrLine c := ⟨hc, mayAct_iff.mpr (.inl owned)⟩
    rw [exec_verify takes length (by omega), onNamed_taken may, verifying]
    simp [urgent, Device.mayUrge, tenant]

end Sys2Proof.Machine

/-! SUPPORT. Deletions: a circuit's run abandoned, and the circuit forgotten everywhere. -/

namespace Sys2Proof.Machine

/-! ### A circuit's run abandoned (R71, R109, R130) -/

/-- R102: the run slot found for a circuit holds a run of it. -/
theorem runOf_run {d : Device} {i : Fin 256} {slot : Fin 32} (h : d.runOf i = some slot) :
    ∃ r, d.runs.get slot = some r ∧ r.circuit = i := by
  have found := List.find?_some h
  obtain ⟨r, hr, mine⟩ := (Option.any_eq_true ..).mp found
  exact ⟨r, hr, eq_of_beq mine⟩

/-- R109, R130: the messages of an abandoned run, REFUSE upstream from a transit or tail and CANCEL downstream. -/
def Device.tellAbandoned (d : Device) (cid : Nat) (r : Run) (reason : Reason) : Device :=
  Device.sendOpt (if r.role = .head then d else d.sendOpt r.up (.refuse cid r.id r.k reason)) r.down (.cancel cid r.id)

/-- R156: they touch links and ports alone. -/
theorem tellAbandoned_eq (d : Device) (cid : Nat) (r : Run) (reason : Reason) :
    ∃ ports, d.tellAbandoned cid r reason =
      { d with links := (d.tellAbandoned cid r reason).links, ports := ports } := by
  unfold Device.tellAbandoned
  split
  · obtain ⟨links, ports, e⟩ := sendOpt_eq d r.down (.cancel cid r.id)
    exact ⟨ports, by rw [e]⟩
  · obtain ⟨links, ports, first⟩ := sendOpt_eq d r.up (.refuse cid r.id r.k reason)
    rw [first]
    obtain ⟨links, ports, second⟩ := sendOpt_eq { d with links := links, ports := ports } r.down (.cancel cid r.id)
    exact ⟨ports, by rw [second]⟩

/-- R156: what they leave in the links depends on the links alone. -/
theorem tellAbandoned_links {d e : Device} (h : d.links = e.links) (cid : Nat) (r : Run) (reason : Reason) :
    (d.tellAbandoned cid r reason).links = (e.tellAbandoned cid r reason).links := by
  unfold Device.tellAbandoned
  split
  · exact sendOpt_links h _ _
  · exact sendOpt_links (sendOpt_links h _ _) _ _

/-- R109, R130: a circuit's run abandoned: the messages, and the run freed. -/
theorem abandonRun_some {d : Device} {i : Fin 256} {c : Circuit} {slot : Fin 32} {r : Run} (hc : d.circuit i = some c)
    (found : d.runOf i = some slot) (hr : d.runs.get slot = some r) (reason : Reason) :
    d.abandonRun i reason = (d.tellAbandoned c.cid r reason).freeRun slot := by
  have cid : d.cidOf i = c.cid := by simp [Device.cidOf, hc]
  simp only [Device.abandonRun, found, hr, Device.tellAbandoned]
  split
  · rw [cid]
  · have kept : (d.sendOpt r.up (.refuse (d.cidOf i) r.id r.k reason)).cidOf i = c.cid := by
      obtain ⟨links, ports, e⟩ := sendOpt_eq d r.up (.refuse (d.cidOf i) r.id r.k reason)
      rw [e, ← cid]
      rfl
    rw [kept, cid]

/-- R104, R109, R130: what an abandoned run leaves: its slot and its grant record are free, its injector and listen
slots are given back, and of the records only its own is touched. -/
theorem abandonRun_eq {d : Device} {i : Fin 256} {c : Circuit} {slot : Fin 32} {r : Run} (hc : d.circuit i = some c)
    (found : d.runOf i = some slot) (hr : d.runs.get slot = some r) (reason : Reason) :
    ∃ ports, d.abandonRun i reason = { d with
      runs := d.runs.set slot none
      grants := d.grants.filter fun g => g.slot != slot
      injectors := (d.freeInjectorOf slot).injectors
      taps := if r.listen = .opened then (d.releaseSlots slot).taps else d.taps
      circuits := d.circuits.set i (some (c.detached d))
      links := (d.tellAbandoned c.cid r reason).links
      ports := ports } := by
  obtain ⟨ports, told⟩ := tellAbandoned_eq d c.cid r reason
  obtain ⟨r', hr', rfl⟩ := runOf_run found
  obtain rfl : r = r' := Option.some.inj (hr.symm.trans hr')
  generalize (d.tellAbandoned c.cid r reason).links = links at told ⊢
  refine ⟨ports, ?_⟩
  rw [abandonRun_some hc found hr, told,
    freeRun_circuit (d := { d with links := links, ports := ports }) hr hc]
  rfl

/-! ### DELETE-CIRCUIT (R22) -/

/-- R62, R65: what a window keeps once a deleted circuit is forgotten. -/
theorem forget_eq (i : Fin 256) (y : Window) : y.forget i = { y with
    baselineSet := y.baselineSet.filter (· != i), members := y.members.filter (· != i)
    unresolved := y.unresolved.filter (· != i)
    state := if (y.state = .verifying ∨ y.state = .overdue) ∧ i ∈ y.unresolved ∧
        y.unresolved.filter (· != i) = [] then .done else y.state } := by
  have awaits : y.state.awaits = true ↔ y.state = .verifying ∨ y.state = .overdue := by simp [WindowState.awaits]
  unfold Window.forget Window.resolve removeIdx
  by_cases last : y.state.awaits = true ∧ i ∈ y.unresolved
  · obtain ⟨waiting, listed⟩ := last
    simp [waiting, listed, awaits.mp waiting]
  · have kept : ¬(y.state.awaits && y.unresolved.contains i) = true := by simpa using last
    have stays : ¬((y.state = .verifying ∨ y.state = .overdue) ∧ i ∈ y.unresolved ∧
        y.unresolved.filter (· != i) = []) := fun ⟨waiting, listed, _⟩ => last ⟨awaits.mpr waiting, listed⟩
    rw [if_neg kept, if_neg stays]

/-- R65: the windows once a deleted circuit is forgotten. -/
theorem forgotten_get (t : Table (Option Window) 16) (i : Fin 256) (w : Fin 16) :
    (t.mapIdx fun _ w => w.map (Window.forget i)).get w = (t.get w).map fun y => { y with
      baselineSet := y.baselineSet.filter (· != i), members := y.members.filter (· != i)
      unresolved := y.unresolved.filter (· != i)
      state := if (y.state = .verifying ∨ y.state = .overdue) ∧ i ∈ y.unresolved ∧
          y.unresolved.filter (· != i) = [] then .done else y.state } := by
  rw [Table.get_mapIdx, funext (forget_eq i)]

/-- R22: what a deletion leaves: the entry free, the circuit's queue entries and its index in the windows gone, and of
the rest what `e`, the device with its run abandoned, has. -/
theorem remove_eq {d e : Device} {i : Fin 256} (h : (d.removeEntries i).abandonRun i .unknown = e) (owner : Owner) :
    ∃ ports, d.remove i owner = { e with
        circuits := e.circuits.set i none
        windows := e.windows.mapIdx fun _ w => w.map (Window.forget i)
        ports := ports } ∧
      ∀ q, e.ownedBy owner q = true → hasAtt (ports.get q).attention .circuit = true ∧ i ∈ (ports.get q).changed := by
  obtain ⟨forgotten, windows⟩ := onWindows_eq e (Window.forget i)
  obtain ⟨ports, attended, told⟩ := attendCircuit_eq { e with
    circuits := e.circuits.set i none
    windows := e.windows.mapIdx fun _ w => w.map (Window.forget i)
    ports := forgotten } owner i
  refine ⟨ports, ?_, told⟩
  unfold Device.remove Device.forgetIndex
  rw [h, windows]
  exact attended

theorem exec_deleteCircuit {s : State} {p : Fin 4} {body : List Byte} {c : Circuit} (h : s.dev.takesAny p = true)
    (length : body.length = 4) (may : s.dev.mayName p body .owner c) : exec (.deleteCircuit p body) s =
      .next (s.put (Device.arbitrate s.dev false
        ((s.dev.remove (namedIndex body) c.owner).respond p 0x12 0x00 []))) := by
  refine (on_request_any h (by simp [length]) 0x12 (Device.delete p body)).trans ?_
  rw [Device.delete, onNamed_taken may]
  rfl

/-- Settles O17: without a run by `abandonRun_none`, with one by `abandonRun_eq`; the rest of the deletion is
`remove_eq`. -/
theorem deletionRemovesTheRecordEverywhere : Obligations.DeletionRemovesTheRecordEverywhere := by
  rintro ⟨pending, d⟩ p body i c takes length rfl may
  obtain ⟨hc, -⟩ := named_circuit may.1
  rw [exec_deleteCircuit takes length may]
  dsimp only at *
  cases found : d.runOf (namedIndex body) with
  | none =>
    obtain ⟨ports, removed, told⟩ := remove_eq
      (abandonRun_none (d := d.removeEntries (namedIndex body)) found .unknown) c.owner
    rw [removed]
    exact ⟨_, rfl, rfl, rfl, forgotten_get _ _, told, fun _ => ⟨rfl, rfl, rfl⟩, fun slot r h => absurd h (by simp)⟩
  | some slot =>
    obtain ⟨r, hr, -⟩ := runOf_run found
    obtain ⟨abandoned, left⟩ := abandonRun_eq (d := d.removeEntries (namedIndex body)) hc found hr .unknown
    obtain ⟨ports, removed, told⟩ := remove_eq left c.owner
    rw [removed]
    refine ⟨_, rfl, Table.set_set _ _ _ _, rfl, forgotten_get _ _, told, fun h => absurd h (by simp),
      fun slot' r' found' hr' => ?_⟩
    obtain rfl : slot = slot' := Option.some.inj found'
    obtain rfl : r = r' := Option.some.inj (hr.symm.trans hr')
    refine ⟨rfl, fun j => freeInjectorOf_none d slot j, ?_,
      tellAbandoned_links (d := d.removeEntries (namedIndex body)) (e := d) rfl c.cid r .unknown⟩
    split
    · rfl
    · rfl

end Sys2Proof.Machine

/-! SUPPORT. Edits: their changes, what they result in, and when they are applied, staged or dropped. -/

namespace Sys2Proof.Machine

/-! ### The changes of an edit body (R15, R191) -/

/-- R15: a body spells one to ten changes that name no field twice. -/
theorem editList_eq_some {body : List Byte} {changes : List Change} : editList body = some changes ↔
    1 ≤ byteAt body 5 ∧ byteAt body 5 ≤ 10 ∧ changes.length = byteAt body 5 ∧ (changes.map (·.field)).Nodup ∧
    ∀ m ch, changes[m]? = some ch →
      fieldTable[byteAt body (6 + 3 * m)]? = some ch.field ∧ ch.value = fieldAt body (7 + 3 * m) 2 := by
  have place : ∀ m, 6 + 3 * m + 1 = 7 + 3 * m := fun m => by omega
  unfold editList
  dsimp only
  split
  next count =>
    simp only [Option.filter_eq_some_iff, changesAt_eq_some, place, decide_eq_true_eq, count, true_and]
    constructor
    · rintro ⟨⟨length, spelled⟩, nodup⟩
      exact ⟨length, nodup, spelled⟩
    · rintro ⟨length, nodup, spelled⟩
      exact ⟨⟨length, spelled⟩, nodup⟩
  next count =>
    constructor
    · intro h; cases h
    · rintro ⟨least, most, -⟩
      exact absurd ⟨least, most⟩ count

/-! ### The changes laid over a description (R15) -/

/-- The fields that a list of changes names. -/
theorem mem_fields {changes : List Change} {f : Field} :
    f ∈ changes.map (·.field) ↔ ∃ v, (⟨f, v⟩ : Change) ∈ changes := by
  rw [List.mem_map]
  constructor
  · rintro ⟨⟨_, v⟩, mem, rfl⟩
    exact ⟨v, mem⟩
  · rintro ⟨v, mem⟩
    exact ⟨_, mem, rfl⟩

/-- R5, R15: ingress and egress are of the kind the role calls for. -/
theorem kindsOk_iff {x : Desc} : x.kindsOk = true ↔
    (x.role = .head ↔ ∃ t, x.ingress = .tap t) ∧ (x.role = .tail ↔ ∃ t, x.egress = .tap t) := by
  have tap : ∀ y : Place, y.isTap = true ↔ ∃ t, y = .tap t := fun y => by cases y <;> simp [Place.isTap]
  have same : ∀ a b : Bool, (a == b) = true ↔ (a = true ↔ b = true) := by decide
  rw [Desc.kindsOk, Bool.and_eq_true, same, same, tap, tap, beq_iff_eq, beq_iff_eq]
  exact and_congr iff_comm iff_comm

/-- R15: the role an edit results in is the one the resulting description has. -/
theorem editRole_of_holds {c x : Desc} {role : NodeRole} {changes : List Change}
    (held : ∀ ch ∈ changes, x.holds role ch) (kept : ∀ f, f ∉ changes.map (·.field) → c.agreesAt x f) :
    editRole c changes = some x.role := by
  unfold editRole
  split
  next unnamed =>
    have absent : Field.role ∉ changes.map (·.field) := by
      rw [mem_fields]
      rintro ⟨v, mem⟩
      simpa using List.find?_eq_none.mp unnamed _ mem
    exact congrArg some (kept .role absent).symm
  next ch named =>
    have mem := held ch (List.mem_of_find?_eq_some named)
    have isRole : ch.field = .role := by simpa using List.find?_some named
    rcases ch with ⟨f, v⟩
    subst isRole
    exact mem

/-- R15: the changes laid over a description give one exactly where places and role agree, each change is held and each
field not named is kept. -/
theorem overlay_eq_some {c x : Desc} {changes : List Change} (nd : (changes.map (·.field)).Nodup) :
    c.overlay changes = some x ↔ x.kindsOk = true ∧ ∀ f, (∀ v, ⟨f, v⟩ ∈ changes → x.holds x.role ⟨f, v⟩) ∧
      ((∀ v, ⟨f, v⟩ ∉ changes) → c.agreesAt x f) := by
  unfold Desc.overlay
  simp only [Option.bind_eq_bind, Option.bind_eq_some_iff, changes_eq_some nd]
  constructor
  · rintro ⟨role, results, y, ⟨held, kept⟩, h⟩
    split at h
    next kinds =>
      cases h
      obtain rfl : x.role = role := Option.some.inj ((editRole_of_holds held kept).symm.trans results)
      exact ⟨kinds, fun f => ⟨fun v mem => held _ mem, fun absent => kept f fun mem =>
        (mem_fields.mp mem).elim absent⟩⟩
    next => cases h
  · rintro ⟨kinds, fields⟩
    have held : ∀ ch ∈ changes, x.holds x.role ch := fun ch mem => (fields ch.field).1 ch.value mem
    have kept : ∀ f, f ∉ changes.map (·.field) → c.agreesAt x f := fun f absent =>
      (fields f).2 fun v mem => absent (mem_fields.mpr ⟨v, mem⟩)
    exact ⟨x.role, editRole_of_holds held kept, x, ⟨held, kept⟩, if_pos kinds⟩

/-- A statement about every field is one about each of the ten. -/
theorem forall_field {P : Field → Prop} : (∀ f, P f) ↔ P .role ∧ P .hop ∧ P .length ∧ P .channel ∧ P .ingress ∧
    P .egress ∧ P .dwell ∧ P .tolerance ∧ P .policy ∧ P .safe := by
  constructor
  · exact fun h => ⟨h _, h _, h _, h _, h _, h _, h _, h _, h _, h _⟩
  · rintro ⟨role, hop, length, channel, ingress, egress, dwell, tolerance, policy, safe⟩ f
    cases f <;> assumption

/-! ### An edit applied or staged (R16 to R19) -/

theorem applyEdit_soft {d : Device} {i : Fin 256} {c : Circuit} (hc : d.circuit i = some c) (x : Desc) :
    d.applyEdit i x false = { d with circuits := d.circuits.set i (some { c with desc := x }) } := by
  simp only [Device.applyEdit, onCircuit_eq hc]
  rfl

/-- R17: a path edit removes baselines and hop list, sets attempts to 0, removes the queue entries of a record that
leaves the role HEAD, and hands the record to the calendar. -/
theorem applyEdit_path {d : Device} {i : Fin 256} {c : Circuit} (hc : d.circuit i = some c) (x : Desc) :
    d.applyEdit i x true = Device.calendarTakes { d with
      queue := if c.desc.role = .head ∧ x.role ≠ .head then d.queue.filter fun e => e.circuit != i else d.queue
      circuits := d.circuits.set i (some
        { c with desc := x, committed := none, candidate := none, hopList := none, attempts := 0 }) } i := by
  have head : (d.isHead i && x.role != .head) = true ↔ c.desc.role = .head ∧ x.role ≠ .head := by
    simp [Device.isHead, hc]
  simp only [Device.applyEdit, onCircuit_eq hc, if_true, head]
  split <;> rfl

theorem judgeRequestedEdit_noChanges (d : Device) (i : Fin 256) (c : Circuit) :
    d.judgeRequestedEdit i c none = .inr 0x11 := rfl

theorem judgeRequestedEdit_range {d : Device} {c : Circuit} {changes : List Change} (h : c.desc.overlay changes = none)
    (i : Fin 256) : d.judgeRequestedEdit i c (some changes) = .inr 0x11 := by
  simp only [Device.judgeRequestedEdit, h, rcBadArgument]

theorem judgeRequestedEdit_path {d : Device} {c : Circuit} {changes : List Change} {x : Desc}
    (hx : c.desc.overlay changes = some x) (h : x.agrees = false ∨ d.wellFormed x = false) (i : Fin 256) :
    d.judgeRequestedEdit i c (some changes) = .inr 0x11 := by
  simp only [Device.judgeRequestedEdit, hx]
  rcases h with h | h <;> simp [h, rcBadArgument]

theorem judgeRequestedEdit_conflict {d : Device} {i : Fin 256} {c : Circuit} {changes : List Change} {x : Desc}
    (hx : c.desc.overlay changes = some x) (agrees : x.agrees = true) (formed : d.wellFormed x = true)
    (clashes : d.conflicts (some i) x = true) : d.judgeRequestedEdit i c (some changes) = .inr 0x15 := by
  simp [Device.judgeRequestedEdit, hx, agrees, formed, clashes, rcConflict]

theorem judgeRequestedEdit_accepts {d : Device} {i : Fin 256} {c : Circuit} {changes : List Change} {x : Desc}
    (hx : c.desc.overlay changes = some x) (agrees : x.agrees = true) (formed : d.wellFormed x = true)
    (clear : d.conflicts (some i) x = false) : d.judgeRequestedEdit i c (some changes) = .inl (changes, x) := by
  simp [Device.judgeRequestedEdit, hx, agrees, formed, clear]

theorem edit_refused {d : Device} {p : Fin 4} {body : List Byte} {c : Circuit} {transparent : Bool} {rc : Nat}
    (flag : flagOf (byteAt body 4) = some transparent) (may : d.mayName p body .owner c)
    (judged : d.judgeRequestedEdit (namedIndex body) c (editList body) = .inr rc) :
    d.edit p body = d.respond p 0x11 rc [] := by
  simp only [Device.edit, flag, onNamed_taken may, judged]

theorem edit_accepted {d : Device} {p : Fin 4} {body : List Byte} {c : Circuit} {transparent : Bool}
    {changes : List Change} {x : Desc} (flag : flagOf (byteAt body 4) = some transparent)
    (may : d.mayName p body .owner c)
    (judged : d.judgeRequestedEdit (namedIndex body) c (editList body) = .inl (changes, x)) :
    d.edit p body = d.acceptEdit p (namedIndex body) c transparent changes x := by
  simp only [Device.edit, flag, onNamed_taken may, judged]

/-- R16, R18: an edit of soft fields alone is applied at once to a quiescent record, and to any where it is
transparent. -/
theorem acceptEdit_soft {d : Device} {i : Fin 256} {c : Circuit} {transparent : Bool} {changes : List Change}
    (hc : d.circuit i = some c) (soft : isPathEdit changes = false) (h : c.quiescent = true ∨ transparent = true)
    (p : Fin 4) (x : Desc) : d.acceptEdit p i c transparent changes x =
      Device.respond { d with circuits := d.circuits.set i (some { c with desc := x }) } p 0x11 0x00 [] := by
  simp only [Device.acceptEdit, soft, applyEdit_soft hc, rcOk]
  by_cases quiescent : c.quiescent = true
  · simp [quiescent]
  · simp [quiescent, h.resolve_left quiescent]

/-- R16, R17: a path edit is applied at once to a quiescent record, and the Arbiter judges. -/
theorem acceptEdit_path {d : Device} {i : Fin 256} {c : Circuit} {changes : List Change}
    (path : isPathEdit changes = true) (quiescent : c.quiescent = true) (p : Fin 4) (transparent : Bool) (x : Desc) :
    d.acceptEdit p i c transparent changes x =
      Device.arbitrate d false ((d.applyEdit i x true).respond p 0x11 0x00 []) := by
  simp only [Device.acceptEdit, path, quiescent, if_true, rcOk]

/-- R19: any other edit is staged. -/
theorem acceptEdit_staged {d : Device} {i : Fin 256} {c : Circuit} {transparent : Bool} {changes : List Change}
    (hc : d.circuit i = some c) (busy : c.quiescent = false) (h : isPathEdit changes = true ∨ transparent = false)
    (p : Fin 4) (x : Desc) : d.acceptEdit p i c transparent changes x =
      Device.respond { d with circuits := d.circuits.set i (some
        { c with staged := some ⟨transparent, changes⟩, lastEdit := .none }) } p 0x11 0x01 [] := by
  have waits : (transparent && !isPathEdit changes) = false := by rcases h with h | h <;> simp [h]
  simp only [Device.acceptEdit, busy, waits, Device.stage, onCircuit_eq hc, rcStaged]
  simp

/-! ### A staged edit judged (R20, R21) -/

theorem judgeEdit_outOfRange {d : Device} {c : Desc} {e : StagedEdit} (h : c.overlay e.changes = none) (i : Fin 256) :
    d.judgeEdit i c e = (.droppedPath, none) := by
  simp only [Device.judgeEdit, h]

theorem judgeEdit_path {d : Device} {c x : Desc} {e : StagedEdit} (hx : c.overlay e.changes = some x)
    (h : x.agrees = false ∨ d.wellFormed x = false) (i : Fin 256) : d.judgeEdit i c e = (.droppedPath, none) := by
  simp only [Device.judgeEdit, hx]
  rcases h with h | h <;> simp [h]

theorem judgeEdit_conflict {d : Device} {i : Fin 256} {c x : Desc} {e : StagedEdit} (hx : c.overlay e.changes = some x)
    (agrees : x.agrees = true) (formed : d.wellFormed x = true) (clashes : d.conflicts (some i) x = true) :
    d.judgeEdit i c e = (.droppedConflict, none) := by
  simp [Device.judgeEdit, hx, agrees, formed, clashes]

theorem judgeEdit_applies {d : Device} {i : Fin 256} {c x : Desc} {e : StagedEdit} (hx : c.overlay e.changes = some x)
    (agrees : x.agrees = true) (formed : d.wellFormed x = true) (clear : d.conflicts (some i) x = false) :
    d.judgeEdit i c e = (.applied, some x) := by
  simp [Device.judgeEdit, hx, agrees, formed, clear]

theorem judgeStaged_waits {d : Device} {i : Fin 256} {c : Circuit} (hc : d.circuit i = some c)
    (busy : c.quiescent = false) : d.judgeStaged i = d := by
  simp only [Device.judgeStaged, hc]
  split
  · rfl
  · simp [busy]

theorem judgeStaged_drops {d : Device} {i : Fin 256} {c : Circuit} {e : StagedEdit} {r : EditResult}
    (hc : d.circuit i = some c) (staged : c.staged = some e) (quiescent : c.quiescent = true)
    (judged : d.judgeEdit i c.desc e = (r, none)) : d.judgeStaged i =
      Device.raiseOwner { d with circuits := d.circuits.set i (some { c with staged := none, lastEdit := r }) }
        c.owner .edit := by
  simp [Device.judgeStaged, hc, staged, quiescent, judged, onCircuit_eq hc]

theorem judgeStaged_applies {d : Device} {i : Fin 256} {c : Circuit} {e : StagedEdit} {r : EditResult} {x : Desc}
    (hc : d.circuit i = some c) (staged : c.staged = some e) (quiescent : c.quiescent = true)
    (judged : d.judgeEdit i c.desc e = (r, some x)) : d.judgeStaged i =
      (Device.applyEdit { d with circuits := d.circuits.set i (some { c with staged := none, lastEdit := r }) } i x
        (isPathEdit e.changes)).raiseOwner c.owner .edit := by
  simp [Device.judgeStaged, hc, staged, quiescent, judged, onCircuit_eq hc]

/-! ### The statement -/

/-- R15: what each value of an edit has to be, field by field. -/
theorem overlay_spells {c x : Desc} {changes : List Change} {reads : Field → (Nat → Prop) → Prop → Prop}
    (nd : (changes.map (·.field)).Nodup)
    (hreads : ∀ f fits kept, reads f fits kept ↔
      (∀ v, ⟨f, v⟩ ∈ changes → fits v) ∧ ((∀ v, ⟨f, v⟩ ∉ changes) → kept)) :
    c.overlay changes = some x ↔
      (x.role = .head ↔ ∃ t, x.ingress = .tap t) ∧ (x.role = .tail ↔ ∃ t, x.egress = .tap t) ∧
      reads .role (fun v => nodeRoleTable[v]? = some x.role) (x.role = c.role) ∧
      reads .hop (fun v => x.k = v ∧ v ≤ 15) (x.k = c.k) ∧
      reads .length (fun v => x.n = v ∧ 2 ≤ v ∧ v ≤ 16) (x.n = c.n) ∧
      reads .channel (fun v => x.channel = v ∧ 1 ≤ v ∧ v ≤ 96) (x.channel = c.channel) ∧
      reads .ingress (fun v => (∃ t : Fin 16, x.role = .head ∧ v = t.val ∧ x.ingress = .tap t) ∨
        ∃ g : Fin 4, x.role ≠ .head ∧ v = g.val ∧ x.ingress = .degree g) (x.ingress = c.ingress) ∧
      reads .egress (fun v => (∃ t : Fin 16, x.role = .tail ∧ v = t.val ∧ x.egress = .tap t) ∨
        ∃ g : Fin 4, x.role ≠ .tail ∧ v = g.val ∧ x.egress = .degree g) (x.egress = c.egress) ∧
      reads .dwell (fun v => (v = 65535 ∧ x.dwell = 5) ∨ (x.dwell = v ∧ 1 ≤ v ∧ v ≤ 20)) (x.dwell = c.dwell) ∧
      reads .tolerance (fun v => (v = 65535 ∧ x.tolerance = 15) ∨ (x.tolerance = v ∧ 1 ≤ v ∧ v ≤ 100))
        (x.tolerance = c.tolerance) ∧
      reads .policy (fun v => (v = 65535 ∧ x.policy = .fail) ∨ policyTable[v]? = some x.policy) (x.policy = c.policy) ∧
      reads .safe (fun v => (v = 65535 ∧ x.safe = .withdrawAuto) ∨ safeTable[v]? = some x.safe) (x.safe = c.safe) := by
  rw [overlay_eq_some nd, kindsOk_iff, forall_field, and_assoc]
  simp only [hreads, Desc.holds, Desc.agreesAt, ingressFor_eq_some, egressFor_eq_some,
    softValue_eq_some (hi := 20) (by omega), softValue_eq_some (hi := 100) (by omega),
    softCode_eq_some (l := policyTable) (by decide), softCode_eq_some (l := safeTable) (by decide)]

/-- R12, R65: what a record handed to the calendar joins, and the hold change that it is told of. -/
theorem calendarTakes_spells {d : Device} {i : Fin 256} {c : Circuit} {covers : Fin 16 → Window → Prop}
    (hc : d.circuit i = some c)
    (hcovers : ∀ w y, covers w y ↔
      d.windows.get w = some y ∧ y.state = .opened ∧ d.inScope y c.desc = true ∧ i ∉ y.members) :
    ((∀ w y, ¬covers w y) → d.calendarTakes i = d) ∧
    ((∃ w y, covers w y) → ∃ (t : Table (Option Window) 16) (h : HoldChange),
      d.calendarTakes i = Device.holdChange { d with windows := t } i h ∧
      (∀ w y, d.windows.get w = some y →
        (covers w y → t.get w = some { y with members := insertIdx i y.members }) ∧
        (¬covers w y → t.get w = some y)) ∧
      (∀ w, d.windows.get w = none → t.get w = none) ∧
      (∀ w, w ∈ h.added ↔ ∃ y, covers w y) ∧ h.closed = [] ∧
      ∀ w, w ∈ h.held ↔ ∃ y, t.get w = some y ∧ y.state = .opened ∧ i ∈ y.members) := by
  have joins : ∀ w, w ∈ d.joinable i c.desc ↔ ∃ y, covers w y := fun w => by simp only [mem_joinable, hcovers]
  constructor
  · intro uncovered
    refine calendarTakes_none hc (List.eq_nil_iff_forall_not_mem.mpr fun w mem => ?_)
    obtain ⟨y, h⟩ := (joins w).mp mem
    exact uncovered w y h
  · rintro ⟨w, covered⟩
    refine ⟨_, _, calendarTakes_some hc (List.ne_nil_of_mem ((joins w).mpr covered)), fun w y hy => ⟨fun h => ?_,
      fun h => ?_⟩, fun w hw => ?_, joins, rfl, fun w => mem_joining_held⟩
    · rw [joined_get, if_pos ((joins w).mpr ⟨y, h⟩), hy]
      rfl
    · have apart : w ∉ d.joinable i c.desc := fun mem => by
        obtain ⟨z, hz⟩ := (joins w).mp mem
        obtain rfl : y = z := Option.some.inj (hy.symm.trans ((hcovers w z).mp hz).1)
        exact h hz
      rw [joined_get, if_neg apart, hy]
    · rw [joined_get, hw]
      split <;> rfl

/-- Settles O16: the body by `editList_eq_some`, the overlay by `overlay_spells`, a requested edit by the cases of
`judgeRequestedEdit` and `acceptEdit`, the calendar by `calendarTakes_spells`, and a staged edit by the cases of
`judgeEdit`. -/
theorem editIsAppliedOrStaged : Obligations.EditIsAppliedOrStaged := by
  refine ⟨fun body changes => editList_eq_some, fun c x changes reads nd hreads => overlay_spells nd hreads, ?requested,
    fun d i c covers hc hcovers => calendarTakes_spells hc hcovers, ?staged⟩
  case requested =>
    rintro ⟨pending, d⟩ p body i c transparent answer takes length rfl may flagByte hanswer
    obtain ⟨hc, -⟩ := named_circuit may.1
    have flag : flagOf (byteAt body 4) = some transparent := by rw [flagByte]; cases transparent <;> rfl
    have answers : ∀ {rc : Nat} {e : Device}, d.edit p body = e.respond p 0x11 rc [] → answer rc e := fun h =>
      (hanswer _ _).mpr (by rw [exec_editCircuit takes length, h])
    refine ⟨fun none => ?_, fun changes list => ⟨fun none => ?_, fun x hx => ⟨fun path => ?_,
      fun agrees formed clashes => ?_, fun agrees formed clear => ?_⟩⟩⟩
    · exact answers (edit_refused flag may (none ▸ judgeRequestedEdit_noChanges _ _ _))
    · exact answers (edit_refused flag may (list ▸ judgeRequestedEdit_range none _))
    · exact answers (edit_refused flag may (list ▸ judgeRequestedEdit_path hx path _))
    · exact answers (edit_refused flag may (list ▸ judgeRequestedEdit_conflict hx agrees formed clashes))
    · have accepted := edit_accepted flag may (list ▸ judgeRequestedEdit_accepts hx agrees formed clear)
      refine ⟨fun soft now => ?_, fun path quiescent => ?_, fun busy waits => ?_⟩
      · exact answers (accepted.trans (acceptEdit_soft hc soft now p x))
      · rw [exec_editCircuit takes length]
        dsimp only
        rw [accepted, acceptEdit_path path quiescent, applyEdit_path hc]
      · exact answers (accepted.trans (acceptEdit_staged hc busy waits p x))
  case staged =>
    intro d i c hc
    refine ⟨judgeStaged_none hc, fun e becomes dropped staged hbecomes hdropped =>
      ⟨judgeStaged_waits hc, fun quiescent => ?_⟩⟩
    have drops : ∀ {r : EditResult}, d.judgeEdit i c.desc e = (r, none) → dropped r := fun judged =>
      (hdropped _).mpr ((hbecomes _).mpr (judgeStaged_drops hc staged quiescent judged))
    refine ⟨fun none => drops (judgeEdit_outOfRange none i), fun x hx => ⟨fun path => drops (judgeEdit_path hx path i),
      fun agrees formed clashes => drops (judgeEdit_conflict hx agrees formed clashes),
      fun agrees formed clear => ?_⟩⟩
    have applied := judgeStaged_applies hc staged quiescent (judgeEdit_applies hx agrees formed clear)
    have written := circuit_set_self d i (some { c with staged := none, lastEdit := .applied })
    refine ⟨fun soft => (hbecomes _).mpr ?_, fun path => (hbecomes _).mpr ?_⟩
    · rw [applied, soft, applyEdit_soft written, Table.set_set]
    · rw [applied, path, applyEdit_path written, Table.set_set]

end Sys2Proof.Machine

/-! SUPPORT. What the taps deliver: readings with the light classes that follow from them, and decoded code frames. -/

namespace Sys2Proof.Machine

/-! ### A command outside reset, and a command of a LINE port, reaches its block (R164, R178) -/

/-- R178: outside reset a command reaches the operation of its block. -/
theorem on_unlessReset {s : State} (h : s.dev.rst = false) (f : Device → Device) :
    s.on (unlessReset f) = .next (s.put (f s.dev)) := by
  simp [on_eq_put, unlessReset, h]

/-- R164: a LINE port's command with the length it calls for is what its block does with it. -/
theorem on_request_line {s : State} {p : Fin 4} {ok : Bool} (h : s.dev.takesLine p = true) (length : ok = true)
    (code : Nat) (act : Device → Device) :
    (s.on fun d => d.request ⟨code, true, false⟩ p ok act) = .next (s.put (act s.dev)) := by
  rw [on_eq_put, length, request_line h]

/-! ### Levels and light classes (R25, R26) -/

theorem level_none {x : Tap} (h : x.reading = none) : x.level = none := by rw [Tap.level, h, Option.map_none]

theorem level_some {x : Tap} {r : Int} (h : x.reading = some r) :
    x.level = some (max (-600) (min 250 (r + x.settings.trim))) := by rw [Tap.level, h, Option.map_some]

theorem lightClass_none {x : Tap} (h : x.level = none) : x.lightClass = .dark := by rw [Tap.lightClass, h]

/-- R26: the light class of a tap that has a level. -/
theorem lightClass_some {x : Tap} {v : Int} (h : x.level = some v) : x.lightClass =
    if v < -400 then .dark else if v < x.settings.low then .under
    else if x.settings.high < v then .over else .normal := by rw [Tap.lightClass, h]

/-! ### A delivery of readings (R25, R26) -/

theorem plantAtReading_iff {old new : Tap} : old.plantAtReading new = true ↔
    old.reading.isSome = true ∧ new.settings.fn = .lineIn ∧ old.lightClass ≠ new.lightClass := by
  simp [Tap.plantAtReading, and_assoc]

/-- The part with the readings of a delivery written, before any attention. -/
def Device.withReadings (d : Device) (readings : Table Int 16) : Device :=
  { d with taps := d.taps.mapIdx fun t x => ({ x with reading := some (readings.get t) } : Tap) }

theorem withReadings_get (d : Device) (readings : Table Int 16) (t : Fin 16) :
    (d.withReadings readings).taps.get t = { d.taps.get t with reading := some (readings.get t) } :=
  Table.get_mapIdx _ _ _

/-- R26: some LINE-IN tap that had a reading changes its light class at a delivery. -/
def Device.classChanges (d : Device) (readings : Table Int 16) : Prop :=
  ∃ t, (d.taps.get t).reading.isSome = true ∧ (d.taps.get t).settings.fn = .lineIn ∧
    (d.taps.get t).lightClass ≠ ((d.withReadings readings).taps.get t).lightClass

/-- The test a delivery makes before it raises PLANT attention. -/
theorem any_plantAtReading {d : Device} {readings : Table Int 16} :
    ((List.finRange 16).any fun t =>
      (d.taps.get t).plantAtReading ((d.withReadings readings).taps.get t)) = true ↔ d.classChanges readings := by
  simp only [List.any_eq_true, List.mem_finRange, true_and, plantAtReading_iff, withReadings_get, Device.classChanges]

theorem tapReadings_raises {d : Device} {readings : Table Int 16} (h : d.classChanges readings) :
    d.tapReadings readings = (d.withReadings readings).raiseLine .plant := if_pos (any_plantAtReading.mpr h)

theorem tapReadings_quiet {d : Device} {readings : Table Int 16} (h : ¬d.classChanges readings) :
    d.tapReadings readings = d.withReadings readings := if_neg fun e => h (any_plantAtReading.mp e)

theorem exec_tapReading {s : State} (h : s.dev.rst = false) (readings : Table Int 16) :
    exec (.tapReading readings) s = .next (s.put (s.dev.tapReadings readings)) := on_unlessReset h _

/-- Settles O33: a delivery by `tapReadings_raises` and `tapReadings_quiet`, the level by `level_some`, and the class by
the branches of `lightClass_some`. -/
theorem readingsFormLevelsAndClasses : Obligations.ReadingsFormLevelsAndClasses := by
  refine ⟨?delivery, fun x => ⟨fun none => ⟨level_none none, lightClass_none (level_none none)⟩, ?classes⟩⟩
  case delivery =>
    rintro s readings _ raised live rfl hraised
    have raised_iff : raised ↔ s.dev.classChanges readings := hraised.trans (by simp only [exists_eq_left']; rfl)
    rw [exec_tapReading live, raised_iff]
    exact ⟨fun h => by rw [tapReadings_raises h]; rfl, fun h => by rw [tapReadings_quiet h]; rfl⟩
  case classes =>
    rintro r v reading rfl
    have level := level_some reading
    rw [lightClass_some level]
    refine ⟨level, fun dark => if_pos dark, fun lit under => ?_, fun lit inside above => ?_, fun lit inside below => ?_⟩
    · rw [if_neg (by omega), if_pos under]
    · rw [if_neg (by omega), if_neg (by omega), if_pos above]
    · rw [if_neg (by omega), if_neg (by omega), if_neg (by omega)]

/-! ### Decoded code frames (R33 to R35) -/

theorem offer_otherChannel {a : ListenSlot} {channel : Nat} (h : a.channel ≠ channel) (w : BitVec 30) (level : Int) :
    a.offer channel w level = a := if_pos h

/-- R33: a bad frame counts, whatever circuit id it has. -/
theorem offer_bad {a : ListenSlot} {w : BitVec 30} (bad : codeFrameGood w = false) (level : Int) :
    a.offer a.channel w level = { a with bad := min 255 (a.bad + 1) } := by
  simp [ListenSlot.offer, bad]

theorem offer_otherCircuit {a : ListenSlot} {w : BitVec 30} (good : codeFrameGood w = true)
    (other : (codeFrameId w).toNat ≠ a.cid) (channel : Nat) (level : Int) : a.offer channel w level = a := by
  simp [ListenSlot.offer, good, other]

/-- R33, R35: a good frame with the slot's circuit id counts and its level is noted. -/
theorem offer_good {a : ListenSlot} {w : BitVec 30} (good : codeFrameGood w = true)
    (own : (codeFrameId w).toNat = a.cid) (level : Int) : a.offer a.channel w level = { a with
      good := min 255 (a.good + 1), levelSum := a.levelSum + level, levelCount := a.levelCount + 1 } := by
  simp [ListenSlot.offer, good, own]

/-- R33: a tap with a decoded frame offered to each of its occupied slots. -/
def Tap.offered (x : Tap) (channel : Nat) (w : BitVec 30) (level : Int) : Tap :=
  { x with slots := x.slots.mapIdx fun _ o => o.map (ListenSlot.offer channel w level) }

theorem offered_get (x : Tap) (channel : Nat) (w : BitVec 30) (level : Int) (j : Fin 8) :
    (x.offered channel w level).slots.get j = (x.slots.get j).map (ListenSlot.offer channel w level) :=
  Table.get_mapIdx _ _ _

theorem exec_codeFrame {s : State} (h : s.dev.rst = false) (t : Fin 16) (channel : Nat) (w : BitVec 30) (level : Int) :
    exec (.codeFrame t channel w level) s = .next (s.put
      { s.dev with taps := s.dev.taps.set t ((s.dev.taps.get t).offered channel w level) }) := on_unlessReset h _

/-- R34: a slot is SEEN from three good frames on. -/
theorem sighting_eq_seen {a : ListenSlot} : a.sighting = .seen ↔ 3 ≤ a.good := by
  unfold ListenSlot.sighting
  split
  · simp [*]
  · split <;> simp [*]

theorem sighting_garbled {a : ListenSlot} (few : a.good < 3) (heard : 1 ≤ a.good ∨ 1 ≤ a.bad) :
    a.sighting = .garbled := by rw [ListenSlot.sighting, if_neg (by omega), if_pos heard]

theorem sighting_notSeen {a : ListenSlot} (good : a.good = 0) (bad : a.bad = 0) : a.sighting = .notSeen := by
  rw [ListenSlot.sighting, if_neg (by omega), if_neg (by omega)]

theorem level_of_seen {a : ListenSlot} (h : 3 ≤ a.good) (trim : Int) :
    a.level trim = some (meanLevel a.levelSum a.levelCount + trim) := if_pos (sighting_eq_seen.mpr h)

theorem level_of_not_seen {a : ListenSlot} (h : a.good < 3) (trim : Int) : a.level trim = none :=
  if_neg fun seen => absurd (sighting_eq_seen.mp seen) (by omega)

/-- Settles O34: the frame by what `offer` does with each kind of frame, the sighting by the counts. -/
theorem codeFramesAreCountedAndJudged : Obligations.CodeFramesAreCountedAndJudged := by
  refine ⟨fun s t channel w level live => ⟨_, exec_codeFrame live t channel w level, rfl, rfl, ?slots⟩,
    fun a trim => ⟨fun seen => ⟨sighting_eq_seen.mpr seen, level_of_seen seen trim⟩,
      fun few => ⟨sighting_garbled (by omega) (by omega), level_of_not_seen (by omega) trim⟩,
      fun good bad => ⟨sighting_garbled (by omega) (.inr bad), level_of_not_seen (by omega) trim⟩,
      fun good bad => ⟨sighting_notSeen good bad, level_of_not_seen (by omega) trim⟩⟩⟩
  case slots =>
    rintro j y hy z rfl
    rw [offered_get, hy]
    refine ⟨?free, ?occupied⟩
    case free => rintro rfl; rfl
    case occupied =>
      rintro a rfl
      refine ⟨?passes, ?bad, ?good⟩
      case passes =>
        rintro (other | ⟨good, other⟩)
        · exact congrArg some (offer_otherChannel other w level)
        · exact congrArg some (offer_otherCircuit good other channel level)
      case bad => rintro rfl bad; exact congrArg some (offer_bad bad level)
      case good => rintro rfl good own; exact congrArg some (offer_good good own level)

end Sys2Proof.Machine

/-! SUPPORT. SET-TAP: what its body spells, the order it is judged in, and the settings written. -/

namespace Sys2Proof.Machine

/-! ### Tap settings as bytes spell them (R24, R189, R191) -/

theorem signed_one (v : Nat) : signed 1 v = if v < 128 then (v : Int) else (v : Int) - 256 := by
  unfold signed
  split <;> split <;> omega

theorem signed_two (v : Nat) : signed 2 v = if v < 32768 then (v : Int) else (v : Int) - 65536 := by
  unfold signed
  split <;> split <;> omega

/-- R191: the degree that a byte spells, FFh for none. -/
def degreeOf (v : Nat) : Option (Option (Fin 4)) :=
  if h : v < 4 then some (some ⟨v, h⟩) else if v = 255 then some none else none

theorem degreeOf_eq_some {v : Nat} {degree : Option (Fin 4)} : degreeOf v = some degree ↔
    (v = 255 ∧ degree = none) ∨ ∃ g : Fin 4, v = g.val ∧ degree = some g := by
  constructor
  · intro h
    unfold degreeOf at h
    split at h
    · cases h; exact .inr ⟨_, rfl, rfl⟩
    · split at h
      · cases h; exact .inl ⟨‹_›, rfl⟩
      · cases h
  · rintro (⟨rfl, rfl⟩ | ⟨g, rfl, rfl⟩)
    · rfl
    · exact dif_pos g.isLt

/-- R189, R191: the settings that seven bytes hold for a function and a degree, whatever their ranges. -/
def settingsAt (bs : List Byte) (at' : Nat) (fn : TapFn) (degree : Option (Fin 4)) : TapSettings :=
  { fn, degree, low := signed 2 (fieldAt bs (at' + 2) 2), high := signed 2 (fieldAt bs (at' + 4) 2)
    trim := signed 1 (byteAt bs (at' + 6)) }

theorem tapSettingsAt_eq (bs : List Byte) (at' : Nat) : tapSettingsAt bs at' =
    (tapFnTable[byteAt bs at']?).bind fun fn => (degreeOf (byteAt bs (at' + 1))).bind fun degree =>
      if (settingsAt bs at' fn degree).ok then some (settingsAt bs at' fn degree) else none := by
  unfold tapSettingsAt degreeOf
  refine congrArg _ (funext fun fn => ?_)
  dsimp only
  split
  · rfl
  · split <;> rfl

/-- R27: the ranges of tap settings, and a degree exactly for a line function. -/
theorem tapSettings_ok_iff {n : TapSettings} : n.ok = true ↔
    -600 ≤ n.low ∧ n.low ≤ n.high ∧ n.high ≤ 250 ∧ -8 ≤ n.trim ∧ n.trim ≤ 7 ∧
      (n.degree.isSome = true ↔ n.fn = .lineIn ∨ n.fn = .lineOut) := by
  have kinds : ((n.fn = .lineIn || n.fn = .lineOut) == n.degree.isSome) = true ↔
      (n.degree.isSome = true ↔ n.fn = .lineIn ∨ n.fn = .lineOut) := by
    rw [beq_iff_eq, Bool.eq_iff_iff, Bool.or_eq_true, decide_eq_true_iff, decide_eq_true_iff]
    exact Iff.comm
  simp only [TapSettings.ok, Bool.and_eq_true, kinds, decide_eq_true_iff]
  tauto

/-- R189, R191: the settings that seven bytes spell. -/
theorem tapSettingsAt_eq_some {bs : List Byte} {at' : Nat} {n : TapSettings} : tapSettingsAt bs at' = some n ↔
    tapFnTable[byteAt bs at']? = some n.fn ∧
    ((byteAt bs (at' + 1) = 255 ∧ n.degree = none) ∨ ∃ g : Fin 4, byteAt bs (at' + 1) = g.val ∧ n.degree = some g) ∧
    n.low = signed 2 (fieldAt bs (at' + 2) 2) ∧ n.high = signed 2 (fieldAt bs (at' + 4) 2) ∧
    n.trim = signed 1 (byteAt bs (at' + 6)) ∧ n.ok = true := by
  simp only [tapSettingsAt_eq, Option.bind_eq_some_iff, degreeOf_eq_some]
  constructor
  · rintro ⟨fn, hfn, degree, hdegree, h⟩
    split at h
    · cases h; exact ⟨hfn, hdegree, rfl, rfl, rfl, ‹_›⟩
    · cases h
  · obtain ⟨fn, degree, low, high, trim⟩ := n
    rintro ⟨hfn, hdegree, rfl, rfl, rfl, ok⟩
    exact ⟨fn, hfn, degree, hdegree, if_pos ok⟩

/-! ### The tests of SET-TAP (R6, R27) -/

theorem tapInUse_iff {d : Device} {t : Fin 16} :
    d.tapInUse t = true ↔ ∃ i c, d.circuit i = some c ∧ d.references c.desc t = true := by
  simp only [Device.tapInUse, List.any_eq_true, Table.mem_cells, Option.any_eq_true, Device.circuit]
  constructor
  · rintro ⟨_, ⟨i, rfl⟩, c, hc, names⟩; exact ⟨i, c, hc, names⟩
  · rintro ⟨i, c, hc, names⟩; exact ⟨_, ⟨i, rfl⟩, c, hc, names⟩

theorem tapListening_iff {d : Device} {t : Fin 16} :
    d.tapListening t = true ↔ ∃ j, ((d.taps.get t).slots.get j).isSome = true := by
  simp only [Device.tapListening, List.any_eq_true, Table.mem_cells]
  constructor
  · rintro ⟨_, ⟨j, rfl⟩, occupied⟩; exact ⟨j, occupied⟩
  · rintro ⟨j, occupied⟩; exact ⟨_, ⟨j, rfl⟩, occupied⟩

theorem lineTapTaken_iff {d : Device} {t : Fin 16} {n : TapSettings} : d.lineTapTaken t n = true ↔
    (n.fn = .lineIn ∨ n.fn = .lineOut) ∧
      ∃ u, u ≠ t ∧ (d.taps.get u).settings.fn = n.fn ∧ (d.taps.get u).settings.degree = n.degree := by
  simp [Device.lineTapTaken, Device.tapSettings, and_assoc]

theorem moves_iff {old new : TapSettings} : old.moves new = true ↔ old.fn ≠ new.fn ∨ old.degree ≠ new.degree := by
  simp [TapSettings.moves]

/-- R27: SET-TAP changes the function or the degree of a tap that a record references or that a slot listens on. -/
def Device.tapPinned (d : Device) (t : Fin 16) (n : TapSettings) : Bool :=
  (d.tapSettings t).moves n && (d.tapInUse t || d.tapListening t)

theorem tapPinned_iff {d : Device} {t : Fin 16} {n : TapSettings} : d.tapPinned t n = true ↔
    ((d.taps.get t).settings.fn ≠ n.fn ∨ (d.taps.get t).settings.degree ≠ n.degree) ∧
      ((∃ i c, d.circuit i = some c ∧ d.references c.desc t = true) ∨
        ∃ j, ((d.taps.get t).slots.get j).isSome = true) := by
  rw [Device.tapPinned, Bool.and_eq_true, Bool.or_eq_true, moves_iff, tapInUse_iff, tapListening_iff, Device.tapSettings]

/-- R27: the tests of SET-TAP in their order. -/
theorem judgeTap_eq (d : Device) (t : Fin 16) (n : TapSettings) : d.judgeTap t n =
    if d.tapPinned t n then rcInUse else if d.lineTapTaken t n then rcConflict else rcOk := by
  unfold Device.judgeTap Device.tapPinned
  cases (d.tapSettings t).moves n <;> cases d.tapInUse t <;> rfl

/-! ### The settings written (R26, R28) -/

/-- R28: the part with a tap's settings written, before any attention. -/
def Device.withSettings (d : Device) (t : Fin 16) (n : TapSettings) : Device :=
  { d with taps := d.taps.set t { d.taps.get t with settings := n } }

theorem plantAtSetting_iff {old new : Tap} : old.plantAtSetting new = true ↔
    old.settings.fn = .lineIn ∧ new.settings.fn = .lineIn ∧ old.lightClass ≠ new.lightClass := by
  simp [Tap.plantAtSetting, and_assoc]

/-- R26, R28: the settings written, with PLANT attention where the class of a tap that stays LINE-IN changes. -/
theorem putTap_eq (d : Device) (t : Fin 16) (n : TapSettings) : d.putTap t n =
    if (d.taps.get t).settings.fn = .lineIn ∧ n.fn = .lineIn ∧
        (d.taps.get t).lightClass ≠ ((d.withSettings t n).taps.get t).lightClass then
      (d.withSettings t n).raiseLine .plant
    else d.withSettings t n := by
  have written : (d.withSettings t n).taps.get t = { d.taps.get t with settings := n } := Table.get_set_self _ _ _
  rw [written]
  exact if_congr plantAtSetting_iff rfl rfl

/-! ### SET-TAP (R27) -/

theorem exec_setTap {s : State} {p : Fin 4} {body : List Byte} (h : s.dev.takesLine p = true)
    (length : body.length = 8) : exec (.setTap p body) s = .next (s.put (s.dev.setTap p body)) :=
  on_request_line h (by simp [length]) 0x30 (Device.setTap p body)

theorem setTap_outOfRange {body : List Byte} (h : 16 ≤ byteAt body 0 ∨ tapSettingsAt body 1 = none) (d : Device)
    (p : Fin 4) : d.setTap p body = d.respond p 0x30 0x11 [] := by
  unfold Device.setTap
  split
  · obtain tooHigh | none := h
    · omega
    · rw [none]; rfl
  · rfl

/-- R27: settings in their ranges are judged by the tests that follow, and written where they pass. -/
theorem setTap_inRange {body : List Byte} {t : Fin 16} {n : TapSettings} (ht : byteAt body 0 = t.val)
    (hn : tapSettingsAt body 1 = some n) (d : Device) (p : Fin 4) : d.setTap p body =
      if d.judgeTap t n = rcOk then Device.arbitrate d false ((d.putTap t n).respond p 0x30 rcOk [])
      else d.respond p 0x30 (d.judgeTap t n) [] := by
  have named : (⟨byteAt body 0, ht ▸ t.isLt⟩ : Fin 16) = t := Fin.ext ht
  rw [Device.setTap, dif_pos (ht ▸ t.isLt), hn]
  dsimp only
  rw [named]

theorem setTap_inUse {body : List Byte} {t : Fin 16} {n : TapSettings} (ht : byteAt body 0 = t.val)
    (hn : tapSettingsAt body 1 = some n) {d : Device} (pinned : d.tapPinned t n = true) (p : Fin 4) :
    d.setTap p body = d.respond p 0x30 0x16 [] := by
  have rc : d.judgeTap t n = rcInUse := by rw [judgeTap_eq, if_pos pinned]
  rw [setTap_inRange ht hn, rc, if_neg (by decide), rcInUse]

theorem setTap_conflict {body : List Byte} {t : Fin 16} {n : TapSettings} (ht : byteAt body 0 = t.val)
    (hn : tapSettingsAt body 1 = some n) {d : Device} (movable : ¬d.tapPinned t n = true)
    (taken : d.lineTapTaken t n = true) (p : Fin 4) : d.setTap p body = d.respond p 0x30 0x15 [] := by
  have rc : d.judgeTap t n = rcConflict := by rw [judgeTap_eq, if_neg movable, if_pos taken]
  rw [setTap_inRange ht hn, rc, if_neg (by decide), rcConflict]

theorem setTap_written {body : List Byte} {t : Fin 16} {n : TapSettings} (ht : byteAt body 0 = t.val)
    (hn : tapSettingsAt body 1 = some n) {d : Device} (movable : ¬d.tapPinned t n = true)
    (free : ¬d.lineTapTaken t n = true) (p : Fin 4) :
    d.setTap p body = Device.arbitrate d false ((d.putTap t n).respond p 0x30 0x00 []) := by
  have rc : d.judgeTap t n = rcOk := by rw [judgeTap_eq, if_neg movable, if_neg free]
  rw [setTap_inRange ht hn, rc, if_pos rfl, rcOk]

/-- Settles O29: the body by `tapSettingsAt_eq_some` and the ranges of `tapSettings_ok_iff`, the order by the cases of
`setTap`, and the settings written with their PLANT attention by `putTap_eq`. -/
theorem setTapIsJudgedAndWritten : Obligations.SetTapIsJudgedAndWritten := by
  refine ⟨?body, fun s p body takes length => ?judged⟩
  case body =>
    intro body n word hword
    simp only [tapSettingsAt_eq_some, tapSettings_ok_iff, signed_one, signed_two, hword]
  case judged =>
    have answers : ∀ {e : Device}, s.dev.setTap p body = e → exec (.setTap p body) s = .next (s.put e) :=
      fun h => h ▸ exec_setTap takes length
    refine ⟨fun bad => answers (setTap_outOfRange bad _ _), ?_⟩
    rintro t n _ moves lineFn taken _ ht hn rfl hline hmoves htaken rfl
    have taken_iff : taken ↔ s.dev.lineTapTaken t n = true := by rw [htaken, hline, lineTapTaken_iff]
    refine ⟨fun moved held => answers (setTap_inUse ht hn (tapPinned_iff.mpr ⟨hmoves.mp moved, held⟩) p),
      fun loose => ?_⟩
    have movable : ¬s.dev.tapPinned t n = true := fun pinned => by
      obtain ⟨moved, held⟩ := tapPinned_iff.mp pinned
      obtain ⟨unreferenced, free⟩ := loose (hmoves.mpr moved)
      obtain ⟨i, c, hc, names⟩ | ⟨j, occupied⟩ := held
      · simp [unreferenced i c hc] at names
      · simp [free j] at occupied
    refine ⟨fun h => answers (setTap_conflict ht hn movable (taken_iff.mp h) p), fun h => ?_⟩
    have written := setTap_written ht hn movable (mt taken_iff.mpr h) p
    rw [putTap_eq] at written
    exact answers written

end Sys2Proof.Machine

/-! SUPPORT. What leaves the clock, the configuration and the time base alone: peer messages, links, the timers of the
runs, and the commands about ports, circuits, windows and taps. -/

namespace Sys2Proof.Machine

/-! ### Peer messages (R106 to R126) -/

theorem receive_same (g : Fin 4) (m : Message) {f : Device → Device} (h : ∀ d : Device, SameOutside d (f d))
    (d : Device) : SameOutside d (d.receive g m f) :=
  .thenIf (heard_same d g) (h _)

theorem onMatched_same (d : Device) (cid : Nat) (run : RunId) (side : Run → Option (Fin 4)) (g : Fin 4)
    {f : Fin 32 → Run → Device} (h : ∀ slot r, SameOutside d (f slot r)) :
    SameOutside d (d.onMatched cid run side g f) := by
  unfold Device.onMatched
  split
  · exact .rfl' d
  · exact h _ _

theorem enter_same (d : Device) (slot : Fin 32) (phase : Phase) (wait : Nat) : SameOutside d (d.enter slot phase wait) :=
  onRun_same d slot _

theorem withoutRun_same (d : Device) (i : Fin 256) : SameOutside d (d.withoutRun i) := by
  unfold Device.withoutRun
  split
  · exact .rfl' d
  · exact freeRun_same d _

theorem passAnnounce_same (d : Device) (c : Circuit) (run : RunId) (kind : Kind) (dwell : Nat) :
    SameOutside d (d.passAnnounce c run kind dwell) := by
  unfold Device.passAnnounce
  split
  · exact sendOpt_same d _ _
  · exact sendOpt_same d _ _

theorem openRun_same (d : Device) (slot : Fin 32) (r : Run) (i : Fin 256) (c : Circuit) (run : RunId) (kind : Kind) :
    SameOutside d
      ((Device.claim { d with runs := d.runs.set slot (some r) } slot c.cid c.desc).attach i run kind) :=
  ⟨rfl, rfl, rfl, rfl, rfl, rfl, rfl, rfl, rfl, rfl⟩

theorem accept_same (d : Device) (i : Fin 256) (c : Circuit) (run : RunId) (kind : Kind) (dwell : Nat) :
    SameOutside d (d.accept i c run kind dwell) := by
  unfold Device.accept
  dsimp only
  split
  · exact withoutRun_same d i
  · exact ((withoutRun_same d i).trans (openRun_same _ _ _ i c run kind)).trans (passAnnounce_same _ c run kind dwell)

theorem announced_same (g : Fin 4) (cid : Nat) (run : RunId) (kind : Kind) (hop n dwell : Nat) (d : Device) :
    SameOutside d (d.announced g cid run kind hop n dwell) := by
  unfold Device.announced
  split
  · exact send_same d _ _
  split
  · exact .rfl' d
  split
  · exact send_same d _ _
  · exact .thenIf (accept_same d _ _ _ _ _) (arbitrate_same _ _ _)

theorem armedArrives_same (g : Fin 4) (cid : Nat) (run : RunId) (d : Device) :
    SameOutside d (d.armedArrives g cid run) :=
  onMatched_same d cid run _ g fun slot r => by
    unfold Device.takeArmed
    split
    · exact (sendOpt_same d _ _).trans (enter_same _ _ _ _)
    · split
      · exact .rfl' d
      · exact ⟨rfl, rfl, rfl, rfl, rfl, rfl, rfl, rfl, rfl, rfl⟩
    · exact .rfl' d

theorem report_same (d : Device) (slot : Fin 32) (r : Run) (truncated : Bool) (hops : List HopResult) :
    SameOutside d (d.report slot r truncated hops) :=
  (sendOpt_same d _ _).trans (enter_same _ _ _ _)

theorem takeStop_same (d : Device) (slot : Fin 32) (r : Run) : SameOutside d (d.takeStop slot r) := by
  unfold Device.takeStop
  split
  · exact ((sendOpt_same d _ _).trans (closeListen_same _ _)).trans (enter_same _ _ _ _)
  · exact (closeListen_same d _).trans (report_same _ _ _ _ _)
  · exact .rfl' d

theorem stopArrives_same (g : Fin 4) (cid : Nat) (run : RunId) (d : Device) :
    SameOutside d (d.stopArrives g cid run) :=
  onMatched_same d cid run _ g fun slot r => .thenIf (.rfl' d) ((takeStop_same d slot r).trans (arbitrate_same _ _ _))

theorem endOnList_same (d : Device) (slot : Fin 32) (r : Run) (l : HopList) : SameOutside d (d.endOnList slot r l) :=
  (onRun_same d slot _).trans (endHead_same _ _ _ _)

theorem reportArrives_same (g : Fin 4) (cid : Nat) (run : RunId) (truncated : Bool) (hops : List HopResult)
    (d : Device) : SameOutside d (d.reportArrives g cid run truncated hops) :=
  onMatched_same d cid run _ g fun slot r => by
    split
    · exact .rfl' d
    split
    · exact report_same d _ _ _ _
    · exact (endOnList_same d _ _ _).trans (arbitrate_same _ _ _)
    · exact .rfl' d

theorem takeRefuse_same (d : Device) (slot : Fin 32) (r : Run) (hop : Nat) (reason : Reason) :
    SameOutside d (d.takeRefuse slot r hop reason) := by
  unfold Device.takeRefuse
  split
  · exact endHead_same d _ _ _
  · dsimp only
    split
    · exact sendOpt_same d _ _
    · exact ((sendOpt_same d _ _).trans (giveUpListen_same _ _)).trans (enter_same _ _ _ _)
  · exact .rfl' d

theorem refuseArrives_same (g : Fin 4) (cid : Nat) (run : RunId) (hop : Nat) (reason : Reason) (d : Device) :
    SameOutside d (d.refuseArrives g cid run hop reason) :=
  onMatched_same d cid run _ g fun slot r => (takeRefuse_same d slot r hop reason).trans (arbitrate_same _ _ _)

theorem passOutcome_same (d : Device) (g : Fin 4) (o : RunOutcome) : SameOutside d (d.passOutcome g o) := by
  unfold Device.passOutcome
  split
  · exact .rfl' d
  · exact .thenIf (.rfl' d) (sendOpt_same d _ _)

theorem takeOutcome_same (d : Device) (slot : Fin 32) (r : Run) (o : RunOutcome) :
    SameOutside d (d.takeOutcome slot r o) :=
  ((sendOpt_same d _ _).trans (applyOutcome_same _ _ _ _)).trans (dropRun_same _ _)

theorem outcomeArrives_same (g : Fin 4) (o : RunOutcome) (d : Device) : SameOutside d (d.outcomeArrives g o) := by
  unfold Device.outcomeArrives
  split
  · exact passOutcome_same d g o
  · exact (takeOutcome_same d _ _ o).trans (arbitrate_same _ _ _)

theorem cancelDown_same (d : Device) (slot : Fin 32) (r : Run) : SameOutside d (d.cancelDown slot r) :=
  (sendOpt_same d _ _).trans (dropRun_same _ _)

theorem cancelArrives_same (g : Fin 4) (cid : Nat) (run : RunId) (d : Device) :
    SameOutside d (d.cancelArrives g cid run) :=
  onMatched_same d cid run _ g fun slot r => (cancelDown_same d slot r).trans (arbitrate_same _ _ _)

theorem takeRequest_same (d : Device) (i : Fin 256) (c : Circuit) (kind : Kind) :
    SameOutside d (d.takeRequest i c kind) := by
  unfold Device.takeRequest
  split
  · exact (enqueue_same d _ _ _).trans (arbitrate_same _ _ _)
  · exact sendOpt_same d _ _
  · exact .rfl' d

theorem requestArrives_same (g : Fin 4) (cid : Nat) (kind : Kind) (d : Device) :
    SameOutside d (d.requestArrives g cid kind) := by
  unfold Device.requestArrives
  split
  · exact .rfl' d
  split
  · exact .rfl' d
  · exact .thenIf (.rfl' d) (takeRequest_same d _ _ kind)

theorem dispatch_same (g : Fin 4) (m : Message) (d : Device) : SameOutside d (d.dispatch g m) := by
  cases m with
  | announce cid run kind hop n dwell => exact announced_same g cid run kind hop n dwell d
  | armed cid run => exact armedArrives_same g cid run d
  | stop cid run => exact stopArrives_same g cid run d
  | report cid run truncated hops => exact reportArrives_same g cid run truncated hops d
  | refuse cid run hop reason => exact refuseArrives_same g cid run hop reason d
  | cancel cid run => exact cancelArrives_same g cid run d
  | outcome o => exact outcomeArrives_same g o d
  | request cid kind => exact requestArrives_same g cid kind d

/-! ### Links (R127, R128, R147 to R158) -/

theorem loseDown_same (d : Device) (slot : Fin 32) (r : Run) : SameOutside d (d.loseDown slot r) := by
  unfold Device.loseDown
  split
  · exact (sendOpt_same d _ _).trans (dropRun_same _ _)
  · exact (sendOpt_same d _ _).trans (dropRun_same _ _)
  · exact report_same d _ _ _ _
  · exact .rfl' d
  · exact endHead_same d _ _ _
  · exact endHead_same d _ _ _
  · exact endHead_same d _ _ _

theorem loseLink_same (g : Fin 4) (d : Device) (slot : Fin 32) : SameOutside d (d.loseLink g slot) := by
  unfold Device.loseLink
  split
  · exact .rfl' d
  split
  · exact cancelDown_same d _ _
  · exact .thenIf (.rfl' d) (loseDown_same d _ _)

theorem linkLost_same (d : Device) (g : Fin 4) : SameOutside d (d.linkLost g) :=
  (SameOutside.foldl (loseLink_same g) _ d).trans (arbitrate_same _ _ _)

theorem linkWithPlant_same (d : Device) (g : Fin 4) (f : Link → Link) : SameOutside d (d.linkWithPlant g f) := by
  unfold Device.linkWithPlant
  dsimp only
  split
  · exact link_same d g f
  · exact (link_same d g f).trans (raiseLine_same _ _)

theorem miswire_same (d : Device) (g : Fin 4) (node degree accepting : Nat) :
    SameOutside d (d.miswire g node degree accepting) :=
  (linkWithPlant_same d g _).trans (raiseCheck_same _ _)

theorem helloAgreed_same (d : Device) (g : Fin 4) : SameOutside d (d.helloAgreed g) := by
  unfold Device.helloAgreed
  split
  · exact .rfl' d
  · exact linkWithPlant_same d g _
  · exact linkWithPlant_same d g _
  · exact .rfl' d
  · exact linkWithPlant_same d g _

theorem helloDisagreed_same (d : Device) (g : Fin 4) (node degree accepting : Nat) :
    SameOutside d (d.helloDisagreed g node degree accepting) := by
  unfold Device.helloDisagreed
  split
  · exact .rfl' d
  · exact miswire_same d g _ _ _
  · exact miswire_same d g _ _ _
  · exact (miswire_same d g _ _ _).trans (linkLost_same _ g)
  · exact link_same d g _

theorem helloArrives_same (g : Fin 4) (node degree : Nat) (d : Device) :
    SameOutside d (d.helloArrives g node degree) := by
  have seen := (heard_same d g).trans (link_same _ g (·.see node degree))
  unfold Device.helloArrives
  split
  · exact .rfl' d
  dsimp only
  split
  · split
    · exact seen.trans (helloAgreed_same _ g)
    · exact seen.trans (helloDisagreed_same _ g _ _ _)
  · exact heard_same d g

theorem takeFrame_same (g : Fin 4) (bytes : List Byte) (d : Device) : SameOutside d (d.takeFrame g bytes) := by
  unfold Device.takeFrame
  split
  · exact .rfl' d
  split
  · exact heard_same d g
  · exact helloArrives_same g _ _ d
  · exact receive_same g _ (dispatch_same g _) d

/-! ### The timers of the runs and of the records (R75, R115 to R124) -/

theorem armedExpires_same (d : Device) (slot : Fin 32) (r : Run) : SameOutside d (d.armedExpires slot r) := by
  unfold Device.armedExpires
  split
  · exact endHead_same d _ _ _
  · exact (sendOpt_same d _ _).trans (cancelDown_same _ _ _)

theorem dwellEnds_same (d : Device) (slot : Fin 32) (r : Run) : SameOutside d (d.dwellEnds slot r) :=
  (((freeInjectorOf_same d slot).trans (sendOpt_same _ _ _)).trans (closeListen_same _ _)).trans (enter_same _ _ _ _)

theorem reportExpires_same (d : Device) (slot : Fin 32) (r : Run) : SameOutside d (d.reportExpires slot r) := by
  unfold Device.reportExpires
  split
  · exact (endOnList_same d _ _ _).trans (arbitrate_same _ _ _)
  · exact report_same d _ _ _ _

theorem requestExpires_same (d : Device) (i : Fin 256) (c : Circuit) : SameOutside d (d.requestExpires i c) := by
  unfold Device.requestExpires
  split
  · exact (sendOpt_same d _ _).trans (onCircuit_same _ i _)
  · exact ((onCircuit_same d i _).trans (attendChange_same _ i _)).trans (judgeStaged_same _ i)

/-! ### Commands about a port (R167 to R175) -/

theorem seek_same (p : Fin 4) (body : List Byte) (d : Device) : SameOutside d (d.seek p body) := by
  unfold Device.seek
  split
  · exact respond_same d p _ _ _
  · exact .trans (.thenIf (.rfl' d) (port_same d p _)) (respond_same _ p _ _ _)

theorem read_same (p : Fin 4) (d : Device) : SameOutside d (d.read p) :=
  .trans (.thenIf (.rfl' d) (port_same d p _)) (respond_same _ p _ _ _)

theorem ackAttention_same (p : Fin 4) (body : List Byte) (d : Device) : SameOutside d (d.ackAttention p body) := by
  unfold Device.ackAttention
  split
  · exact respond_same d p _ _ _
  · exact (port_same d p _).trans (respond_same _ p _ _ _)

theorem setNotify_same (p : Fin 4) (body : List Byte) (d : Device) : SameOutside d (d.setNotify p body) := by
  unfold Device.setNotify
  split
  · exact (port_same d p _).trans (respond_same _ p _ _ _)
  · exact respond_same d p _ _ _

theorem dropCleared_same (d : Device) : SameOutside d d.dropCleared :=
  .thenIf (.rfl' d) ⟨rfl, rfl, rfl, rfl, rfl, rfl, rfl, rfl, rfl, rfl⟩

theorem clearCheck_same (p : Fin 4) (d : Device) : SameOutside d (d.clearCheck p) := by
  unfold Device.clearCheck
  split
  · exact respond_same d p _ _ _
  split
  · exact respond_same d p _ _ _
  · exact ((port_same d p _).trans (dropCleared_same _)).trans (respond_same _ p _ _ _)

/-! ### Commands about a circuit (R10 to R22, R82 to R90, R137, R138) -/

theorem onNamed_same (d : Device) (p : Fin 4) (code : Nat) (right : Right) (body : List Byte)
    {act : Fin 256 → Circuit → Device} (h : ∀ i c, SameOutside d (act i c)) :
    SameOutside d (d.onNamed p code right body act) := by
  unfold Device.onNamed
  split
  · exact respond_same d p _ _ _
  split
  · exact h _ _
  · exact respond_same d p _ _ _

theorem putCircuit_same (d : Device) (i : Fin 256) (c : Option Circuit) :
    SameOutside d { d with circuits := d.circuits.set i c } :=
  ⟨rfl, rfl, rfl, rfl, rfl, rfl, rfl, rfl, rfl, rfl⟩

theorem create_same (d : Device) (i : Fin 256) (c : Circuit) : SameOutside d (d.create i c) :=
  ((putCircuit_same d i _).trans (calendarTakes_same _ i)).trans (attendCircuit_same _ _ i)

theorem register_same (p : Fin 4) (body : List Byte) (d : Device) : SameOutside d (d.register p body) := by
  unfold Device.register
  split
  · exact respond_same d p _ _ _
  split
  · exact respond_same d p _ _ _
  · exact (create_same d _ _).trans (respond_same _ p _ _ _)

theorem acceptEdit_same (d : Device) (p : Fin 4) (i : Fin 256) (c : Circuit) (transparent : Bool)
    (changes : List Change) (x : Desc) : SameOutside d (d.acceptEdit p i c transparent changes x) := by
  have applied : ∀ path, SameOutside d ((d.applyEdit i x path).respond p 0x11 rcOk []) := fun path =>
    (applyEdit_same d i x path).trans (respond_same _ p _ _ _)
  unfold Device.acceptEdit
  dsimp only
  split
  · exact .thenIf (applied _) (arbitrate_same _ _ _)
  split
  · exact applied false
  · exact (onCircuit_same d i _).trans (respond_same _ p _ _ _)

theorem edit_same (p : Fin 4) (body : List Byte) (d : Device) : SameOutside d (d.edit p body) := by
  unfold Device.edit
  split
  · exact respond_same d p _ _ _
  refine onNamed_same d p _ _ body fun i c => ?_
  split
  · exact respond_same d p _ _ _
  · exact acceptEdit_same d p i c _ _ _

theorem removeEntries_same (d : Device) (i : Fin 256) : SameOutside d (d.removeEntries i) :=
  ⟨rfl, rfl, rfl, rfl, rfl, rfl, rfl, rfl, rfl, rfl⟩

theorem remove_same (d : Device) (i : Fin 256) (owner : Owner) : SameOutside d (d.remove i owner) :=
  ((((removeEntries_same d i).trans (abandonRun_same _ i _)).trans (onWindows_same _ _)).trans
    (putCircuit_same _ i none)).trans (attendCircuit_same _ owner i)

theorem delete_same (p : Fin 4) (body : List Byte) (d : Device) : SameOutside d (d.delete p body) :=
  onNamed_same d p _ _ body fun i c =>
    ((remove_same d i c.owner).trans (respond_same _ p _ _ _)).trans (arbitrate_same _ _ _)

theorem permitRequested_same (p : Fin 4) (body : List Byte) (d : Device) :
    SameOutside d (d.permitRequested p body) := by
  unfold Device.permitRequested
  split
  · exact respond_same d p _ _ _
  · exact onNamed_same d p _ _ body fun i c =>
      ((onCircuit_same d i _).trans (attendChange_same _ i _)).trans (respond_same _ p _ _ _)

theorem confirmed_same (d : Device) (i : Fin 256) (c : Circuit) : SameOutside d (d.confirmed i c) := by
  have serving : SameOutside d
      ((d.onCircuit i fun c => { c with service := .inService }).attendChange i (some c)) :=
    (onCircuit_same d i _).trans (attendChange_same _ i _)
  unfold Device.confirmed
  dsimp only
  split
  · exact serving
  · exact (serving.trans (judgeStaged_same _ i)).trans (arbitrate_same _ _ _)

theorem confirm_same (p : Fin 4) (body : List Byte) (d : Device) : SameOutside d (d.confirm p body) :=
  onNamed_same d p _ _ body fun i c => by
    split
    · exact (respond_same d p _ _ _).trans (confirmed_same _ i c)
    · exact respond_same d p _ _ _

theorem askRun_same (d : Device) (p : Fin 4) (code : Nat) (i : Fin 256) (c : Circuit) (k : Kind) (cls : QClass) :
    SameOutside d (d.askRun p code i c k cls) := by
  unfold Device.askRun
  split
  · exact respond_same d p _ _ _
  split
  · exact ((enqueue_same d i k cls).trans (respond_same _ p _ _ _)).trans (arbitrate_same _ _ _)
  · exact (sendOpt_same d _ _).trans (respond_same _ p _ _ _)

theorem verify_same (p : Fin 4) (body : List Byte) (d : Device) : SameOutside d (d.verify p body) := by
  unfold Device.verify
  split
  · exact respond_same d p _ _ _
  refine onNamed_same d p _ _ body fun i c => ?_
  split
  · exact askRun_same d p _ i c _ _
  · exact respond_same d p _ _ _

theorem baseline_same (p : Fin 4) (body : List Byte) (d : Device) : SameOutside d (d.baseline p body) :=
  onNamed_same d p _ _ body fun i c => askRun_same d p _ i c _ _

/-- R137, R138: a change of a record, and the answer. -/
theorem changeAnswered_same (d : Device) (i : Fin 256) (f : Circuit → Circuit) (p : Fin 4) (code : Nat) :
    SameOutside d ((d.onCircuit i f).respond p code rcOk []) :=
  (onCircuit_same d i f).trans (respond_same _ p _ _ _)

theorem commitBaseline_same (p : Fin 4) (body : List Byte) (d : Device) : SameOutside d (d.commitBaseline p body) :=
  onNamed_same d p _ _ body fun i c => by
    split
    · exact respond_same d p _ _ _
    · exact changeAnswered_same d i _ p _

theorem discardBaseline_same (p : Fin 4) (body : List Byte) (d : Device) : SameOutside d (d.discardBaseline p body) :=
  onNamed_same d p _ _ body fun i c => by
    split
    · exact respond_same d p _ _ _
    · exact changeAnswered_same d i _ p _

theorem clearBaseline_same (p : Fin 4) (body : List Byte) (d : Device) : SameOutside d (d.clearBaseline p body) :=
  onNamed_same d p _ _ body fun i _ => changeAnswered_same d i _ p _

/-! ### Commands about a window or a tap (R27, R54 to R57) -/

theorem putWindow_same (d : Device) (w : Fin 16) (x : Option Window) : SameOutside d (d.putWindow w x) :=
  ⟨rfl, rfl, rfl, rfl, rfl, rfl, rfl, rfl, rfl, rfl⟩

theorem scheduleWindow_same (p : Fin 4) (body : List Byte) (d : Device) : SameOutside d (d.scheduleWindow p body) := by
  unfold Device.scheduleWindow
  split
  · exact respond_same d p _ _ _
  split
  · exact respond_same d p _ _ _
  split
  · exact respond_same d p _ _ _
  · exact (moveWindow_same d _ _).trans (respond_same _ p _ _ _)

theorem onWindow_same (d : Device) (p : Fin 4) (code : Nat) (body : List Byte) {act : Fin 16 → Window → Device}
    (h : ∀ w x, SameOutside d (act w x)) : SameOutside d (d.onWindow p code body act) := by
  unfold Device.onWindow
  split
  · split
    · exact respond_same d p _ _ _
    · exact h _ _
  · exact respond_same d p _ _ _

theorem extendWindow_same (p : Fin 4) (body : List Byte) (d : Device) : SameOutside d (d.extendWindow p body) :=
  onWindow_same d p _ body fun w x => by
    dsimp only
    split
    · exact respond_same d p _ _ _
    split
    · exact (putWindow_same d w _).trans (respond_same _ p _ _ _)
    · exact respond_same d p _ _ _

theorem closeWindow_same (p : Fin 4) (body : List Byte) (d : Device) : SameOutside d (d.closeWindow p body) :=
  onWindow_same d p _ body fun w x => by
    have marked : SameOutside d ((d.markClosing w x).respond p 0x22 rcOk []) :=
      (putWindow_same d w _).trans (respond_same _ p _ _ _)
    split
    · exact respond_same d p _ _ _
    dsimp only
    split
    · exact marked
    · exact (marked.trans (evaluate_same _)).trans (arbitrate_same _ _ _)

theorem withdrawWindow_same (p : Fin 4) (body : List Byte) (d : Device) : SameOutside d (d.withdrawWindow p body) :=
  onWindow_same d p _ body fun w x => by
    split
    · exact ((putWindow_same d w _).trans (raiseLine_same _ _)).trans (respond_same _ p _ _ _)
    · exact respond_same d p _ _ _

theorem putTaps_same (d : Device) (taps : Table Tap 16) : SameOutside d { d with taps := taps } :=
  ⟨rfl, rfl, rfl, rfl, rfl, rfl, rfl, rfl, rfl, rfl⟩

theorem putTap_same (d : Device) (t : Fin 16) (n : TapSettings) : SameOutside d (d.putTap t n) :=
  .thenIf (putTaps_same d _) (raiseLine_same _ _)

theorem setTap_same (p : Fin 4) (body : List Byte) (d : Device) : SameOutside d (d.setTap p body) := by
  unfold Device.setTap
  split
  · split
    · exact respond_same d p _ _ _
    dsimp only
    split
    · exact ((putTap_same d _ _).trans (respond_same _ p _ _ _)).trans (arbitrate_same _ _ _)
    · exact respond_same d p _ _ _
  · exact respond_same d p _ _ _

theorem tapReadings_same (readings : Table Int 16) (d : Device) : SameOutside d (d.tapReadings readings) :=
  .thenIf (putTaps_same d _) (raiseLine_same _ _)

end Sys2Proof.Machine

/-! SUPPORT. The clock stays sound: what the clock's own operations keep, and that nothing else writes it. -/

namespace Sys2Proof.Machine

/-! ### Wall times in their ranges (R43, R44, R49, R50) -/

/-- R49: the ranges of a wall time. -/
theorem settable_iff {t : WallTime} : t.settable = true ↔ t.day < 65536 ∧ t.minute < 2048 ∧ t.second < 60 := by
  simp [WallTime.settable, and_assoc]

theorem carry_settable {t : WallTime} (h : t.settable = true) : t.carry.settable = true := by
  obtain ⟨day, minute, second⟩ := settable_iff.mp h
  rw [settable_iff]
  unfold WallTime.carry
  split <;> dsimp only <;> omega

theorem tick_settable {t : WallTime} (h : t.settable = true) : t.tick.settable = true := by
  unfold WallTime.tick
  split
  · obtain ⟨day, minute, second⟩ := settable_iff.mp h
    rw [settable_iff]
    dsimp only
    omega
  · exact carry_settable h

theorem align_settable {t : WallTime} (h : t.settable = true) : t.align.settable = true := by
  unfold WallTime.align
  split
  · obtain ⟨day, minute, second⟩ := settable_iff.mp h
    exact settable_iff.mpr ⟨day, minute, Nat.zero_lt_succ 59⟩
  · exact carry_settable h

/-! ### The clock's own operations (R43 to R50) -/

/-- R44, R50: a running clock, or one in a hold, with another time in its range. -/
theorem Clock.sound.withTime {c : Clock} (h : c.sound) {t : WallTime} (ht : t.settable = true) :
    ({ c with time := t } : Clock).sound :=
  ⟨ht, h.2⟩

theorem Clock.sound.hold {c : Clock} (h : c.sound) (now : Nat) : (c.hold now).sound := ⟨h.1, fun _ => rfl, rfl⟩

theorem Clock.sound.write {c : Clock} (h : c.sound) {t : WallTime} (ht : t.settable = true) : (c.write t).sound :=
  ⟨ht, Bool.noConfusion, h.2.2⟩

/-- R48: the clock that `Device.endHold` evaluates on. -/
def Clock.endHold (c : Clock) : Clock :=
  { c with
    time := if c.pendingTick then c.time.tick else c.time
    pendingTick := false, held := false, holdDeadline := none }

theorem Clock.sound.endHold {c : Clock} (h : c.sound) : c.endHold.sound := by
  refine ⟨?_, Bool.noConfusion, rfl⟩
  unfold Clock.endHold
  dsimp only
  split
  · exact tick_settable h.1
  · exact h.1

theorem Clock.sound.lineReset {c : Clock} (h : c.sound) : c.lineReset.sound := ⟨h.1, Bool.noConfusion, rfl⟩

theorem powerOn_sound : Clock.powerOn.sound := ⟨rfl, Bool.noConfusion, rfl⟩

/-! ### Operations that keep the clock sound -/

/-- Where `d` has a sound clock, so has `e`. -/
def Device.KeepsClock (d e : Device) : Prop := d.clock.sound → e.clock.sound

namespace Device.KeepsClock

variable {d e f x : Device}

theorem rfl' (d : Device) : d.KeepsClock d := id

theorem trans (h : d.KeepsClock e) (k : e.KeepsClock f) : d.KeepsClock f := k ∘ h

theorem thenIf {c : Prop} [Decidable c] (h : d.KeepsClock e) (k : e.KeepsClock x) :
    d.KeepsClock (if c then x else e) := by
  split
  · exact h.trans k
  · exact h

/-- A clock that is the same, or the same in the fields the ranges and the hold are about, stays sound. -/
theorem of_fields (time : e.clock.time = d.clock.time) (held : e.clock.held = d.clock.held)
    (pendingTick : e.clock.pendingTick = d.clock.pendingTick)
    (holdDeadline : e.clock.holdDeadline = d.clock.holdDeadline) : d.KeepsClock e := by
  intro h
  unfold Clock.sound
  rw [time, held, pendingTick, holdDeadline]
  exact h

theorem of_clock (h : e.clock = d.clock) : d.KeepsClock e := of_fields (by rw [h]) (by rw [h]) (by rw [h]) (by rw [h])

theorem of_same (h : SameOutside d e) : d.KeepsClock e := of_clock h.clock

theorem after (k : e.KeepsClock f) (h : e.clock = d.clock) : d.KeepsClock f := (of_clock h).trans k

end Device.KeepsClock

/-- R48: a hold ended, with its evaluation, leaves a sound clock. -/
theorem endHold_clock (d : Device) : d.KeepsClock d.endHold := fun h =>
  Device.KeepsClock.of_same (evaluate_same (d.onClock Clock.endHold)) h.endHold

/-- R44, R47: a tick leaves a sound clock: a pending tick is set in a hold alone, and the time stays in its range. -/
theorem tick_clock (d : Device) : d.KeepsClock d.tick := by
  intro h
  unfold Device.tick
  by_cases held : d.clock.held = true
  · rw [if_pos held]
    split
    · exact h
    · exact ⟨h.1, fun _ => held, h.2.2⟩
  · have ticked : Clock.sound (d.onClock fun c => { c with time := c.time.tick }).clock :=
      h.withTime (tick_settable h.1)
    rw [if_neg held]
    dsimp only
    split
    · exact Device.KeepsClock.of_same (evaluate_same _) ticked
    · exact ticked

theorem tickTaken_clock (d : Device) : d.KeepsClock d.tickTaken := by
  unfold Device.tickTaken thenArbitrate
  split
  · exact (tick_clock d).trans (.of_same (arbitrate_same _ _ _))
  · exact tick_clock d

theorem dividerTick_clock (d : Device) : d.KeepsClock d.dividerTick := by
  unfold Device.dividerTick
  split
  · exact .rfl' d
  · refine .trans ?_ (tickTaken_clock _)
    exact .of_fields rfl rfl rfl rfl

theorem ppsEdge_clock (d : Device) : d.KeepsClock d.ppsEdge := by
  have edge : d.KeepsClock (d.onClock (·.edge d.now)) := .of_fields rfl rfl rfl rfl
  exact (edge.thenIf (.of_same (raiseLine_same _ _))).trans (tickTaken_clock _)

theorem ppsExpires_clock (d : Device) : d.KeepsClock d.ppsExpires := by
  unfold Device.ppsExpires
  split
  · exact .rfl' d
  · exact .of_fields rfl rfl rfl rfl

theorem lineChange_clock (l : Fin 8) (high : Bool) (d : Device) : d.KeepsClock (d.lineChange l high) := by
  have changed : d.KeepsClock { d with lineIn := d.lineIn.set l high } := .of_clock rfl
  unfold Device.lineChange
  dsimp only
  split
  · exact changed.trans (ppsEdge_clock _)
  split
  · exact changed.trans (.of_same (arbitrate_same _ _ _))
  · exact changed

theorem onExpiry_clock (d : Device) (t : Option Nat) {f : Device → Device} (h : ∀ d : Device, d.KeepsClock (f d)) :
    d.KeepsClock (d.onExpiry t f) := by
  unfold Device.onExpiry
  split
  · exact .rfl' d
  · exact (h _).after rfl

theorem holdExpires_clock (d : Device) : d.KeepsClock d.holdExpires :=
  onExpiry_clock d _ fun _ => (endHold_clock _).trans (.of_same ((raiseLine_same _ _).trans (arbitrate_same _ _ _)))

theorem holdClock_clock (p : Fin 4) (d : Device) : d.KeepsClock (d.holdClock p) := by
  unfold Device.holdClock
  split
  · exact .of_same (respond_same d p _ _ _)
  · exact fun h => h.hold d.now

theorem releaseClock_clock (p : Fin 4) (d : Device) : d.KeepsClock (d.releaseClock p) := by
  unfold Device.releaseClock
  split
  · exact .trans (.of_same (respond_same d p _ _ _)) ((endHold_clock _).trans (.of_same (arbitrate_same _ _ _)))
  · exact .of_same (respond_same d p _ _ _)

theorem setClock_clock (p : Fin 4) (body : List Byte) (d : Device) : d.KeepsClock (d.setClock p body) := by
  unfold Device.setClock
  dsimp only
  split
  · exact .of_same (respond_same d p _ _ _)
  next inRange =>
  split
  · exact .of_same (respond_same d p _ _ _)
  · exact fun h => h.write (by simpa using inRange)

theorem alignClock_clock (p : Fin 4) (d : Device) : d.KeepsClock (d.alignClock p) := by
  unfold Device.alignClock
  split
  · exact .of_same (respond_same d p _ _ _)
  · intro h
    refine Device.KeepsClock.of_same ((evaluate_same _).trans (arbitrate_same _ _ _)) ?_
    exact h.withTime (align_settable h.1)

/-! ### The configuration, the resets and the timers (R75, R94, R98, R115 to R124, R177 to R181) -/

/-- R179: the application of an image touches the PPS supervision of the clock alone. -/
theorem applyImage_clock (d : Device) (im : Image) : d.KeepsClock (d.applyImage im) := .of_fields rfl rfl rfl rfl

theorem configure_clock (p : Fin 4) (body : List Byte) (d : Device) : d.KeepsClock (d.configure p body) := by
  unfold Device.configure
  split
  · exact .of_same (respond_same d p _ _ _)
  split
  · exact .of_same (respond_same d p _ _ _)
  · exact .thenIf (applyImage_clock d _) (.of_same (respond_same _ p _ _ _))

theorem storeConfig_clock (p : Fin 4) (d : Device) : d.KeepsClock (d.storeConfig p) := by
  unfold Device.storeConfig
  split
  · exact .of_same (respond_same d p _ _ _)
  · split <;> exact .of_clock rfl

theorem storeEnds_clock (stage : Option (Fin 5)) (d : Device) : d.KeepsClock (d.storeEnds stage) := by
  unfold Device.storeEnds
  split
  · exact .rfl' d
  split
  · exact .of_clock rfl
  · exact .of_clock (raiseCheck_same _ _).clock

theorem setNodeId_clock (p : Fin 4) (body : List Byte) (d : Device) : d.KeepsClock (d.setNodeId p body) := by
  unfold Device.setNodeId
  dsimp only
  split <;> exact .of_clock rfl

theorem loadEnds_clock (bytes : Option (List Byte)) (d : Device) : d.KeepsClock (d.loadEnds bytes) := by
  unfold Device.loadEnds
  split
  · exact .rfl' d
  split
  · exact .of_clock rfl
  · exact applyImage_clock d _

/-- R43: a line reset, whatever else it sets, leaves the clock its time and no hold. -/
theorem lineReset_clock {d e : Device} (h : e.clock = d.clock.lineReset) : d.KeepsClock e := fun sound =>
  h ▸ sound.lineReset

/-- R43: after power-on reset the clock is sound. -/
theorem powerOn_clock {d e : Device} (h : e.clock = .powerOn) : d.KeepsClock e := fun _ => h ▸ powerOn_sound

theorem transaction_clock (p : Fin 4) (clocked : Nat) (d : Device) : d.KeepsClock (d.transaction p clocked) := by
  unfold Device.transaction
  split <;> exact .of_clock rfl

theorem unlessReset_clock {f : Device → Device} (h : ∀ d : Device, d.KeepsClock (f d)) (d : Device) :
    d.KeepsClock (unlessReset f d) := by
  unfold unlessReset
  split
  · exact .rfl' d
  · exact h d

theorem framesArrive_clock (g : Fin 4) (bytes : List Byte) (d : Device) : d.KeepsClock (d.framesArrive g bytes) := by
  refine .of_same (.foldl (fun d rest => ?_) _ d)
  unfold unlessReset
  split
  · exact .rfl' d
  · exact takeFrame_same g rest d

theorem onWaitIn_clock (slot : Fin 32) (runs : Run → Bool) {f : Device → Run → Device}
    (h : ∀ (d : Device) r, SameOutside d (f d r)) (d : Device) : d.KeepsClock (d.onWaitIn slot runs f) := by
  unfold Device.onWaitIn
  split
  · exact .rfl' d
  · exact .thenIf (.rfl' d) (.of_clock (h _ _).clock)

theorem requestTimer_clock (i : Fin 256) (d : Device) : d.KeepsClock (d.requestTimer i) := by
  unfold Device.requestTimer
  split
  · exact .rfl' d
  · exact onExpiry_clock d _ fun d => .of_same (requestExpires_same d i _)

theorem eligiblePasses_clock (i : Fin 256) (kind : Kind) (d : Device) : d.KeepsClock (d.eligiblePasses i kind) := by
  unfold Device.eligiblePasses
  split
  · exact .rfl' d
  · exact onExpiry_clock d _ fun d => .of_same (arbitrate_same d _ d)

theorem preemptPasses_clock (i : Fin 256) (kind : Kind) (d : Device) : d.KeepsClock (d.preemptPasses i kind) := by
  unfold Device.preemptPasses
  split
  · exact .rfl' d
  · exact .thenIf (.rfl' d) (.of_clock (arbitrate_same _ _ _).clock)

theorem silencePasses_clock (g : Fin 4) (d : Device) : d.KeepsClock (d.silencePasses g) :=
  onExpiry_clock d _ fun _ => .of_same (.thenIf (linkWithPlant_same _ g _) (linkLost_same _ g))

/-! ### Every command and every step -/

theorem request_clock (r : CommandRule) (p : Fin 4) (ok : Bool) {act : Device → Device}
    (h : ∀ d : Device, d.KeepsClock (act d)) (d : Device) : d.KeepsClock (d.request r p ok act) := by
  unfold Device.request
  split
  · exact .rfl' d
  split
  · exact .of_same (port_same d p _)
  split
  · exact .of_same (respond_same d p _ _ _)
  · exact h d

/-- A request of a command that leaves the clock alone. -/
theorem request_same_clock (r : CommandRule) (p : Fin 4) (ok : Bool) {act : Device → Device}
    (h : ∀ d : Device, SameOutside d (act d)) (d : Device) : d.KeepsClock (d.request r p ok act) :=
  request_clock r p ok (fun d => .of_same (h d)) d

/-- R164: a request with any code keeps the clock sound. -/
theorem execute_clock (p : Fin 4) (code : Nat) (body : List Byte) (d : Device) :
    d.KeepsClock (d.execute p code body) := by
  unfold Device.execute
  split
  · exact request_same_clock _ p _ (fun d => respond_same d p _ _ _) d
  · exact request_same_clock _ p _ (seek_same p body) d
  · exact request_same_clock _ p _ (read_same p) d
  · exact request_same_clock _ p _ (fun d => (port_same d p _).trans (respond_same _ p _ _ _)) d
  · exact request_same_clock _ p _ (ackAttention_same p body) d
  · exact request_same_clock _ p _ (setNotify_same p body) d
  · exact request_same_clock _ p _ (clearCheck_same p) d
  · exact request_same_clock _ p _ (fun d => (port_same d p _).trans (respond_same _ p _ _ _)) d
  · exact request_same_clock _ p _ (register_same p body) d
  · exact request_same_clock _ p _ (edit_same p body) d
  · exact request_same_clock _ p _ (delete_same p body) d
  · exact request_same_clock _ p _ (permitRequested_same p body) d
  · exact request_same_clock _ p _ (confirm_same p body) d
  · exact request_same_clock _ p _ (verify_same p body) d
  · exact request_same_clock _ p _ (baseline_same p body) d
  · exact request_same_clock _ p _ (commitBaseline_same p body) d
  · exact request_same_clock _ p _ (discardBaseline_same p body) d
  · exact request_same_clock _ p _ (clearBaseline_same p body) d
  · exact request_same_clock _ p _ (scheduleWindow_same p body) d
  · exact request_same_clock _ p _ (extendWindow_same p body) d
  · exact request_same_clock _ p _ (closeWindow_same p body) d
  · exact request_same_clock _ p _ (withdrawWindow_same p body) d
  · exact request_clock _ p _ (holdClock_clock p) d
  · exact request_clock _ p _ (releaseClock_clock p) d
  · exact request_clock _ p _ (setClock_clock p body) d
  · exact request_clock _ p _ (alignClock_clock p) d
  · exact request_same_clock _ p _ (setTap_same p body) d
  · exact request_clock _ p _ (configure_clock p body) d
  · exact request_clock _ p _ (storeConfig_clock p) d
  · exact request_clock _ p _ (setNodeId_clock p body) d
  · exact request_clock _ p _ (fun _ => lineReset_clock rfl) d
  · exact .of_same (respond_same d p _ _ _)

theorem undecoded_clock (p : Fin 4) (bytes : List Byte) (d : Device) : d.KeepsClock (d.undecoded p bytes) := by
  unfold Device.undecoded
  split
  · exact .rfl' d
  split
  · exact .of_same (port_same d p _)
  split
  · exact .of_same (respond_same d p _ _ _)
  · exact execute_clock p _ _ d

/-- A command that acts on the part by an operation that keeps the clock sound. -/
theorem on_clock {s t : State} {f : Device → Device} (h : s.on f = .next t) (k : ∀ d : Device, d.KeepsClock (f d)) :
    s.dev.KeepsClock t.dev := by
  cases h
  exact k s.dev

/-- R149: a message on a link keeps the clock sound. -/
theorem message_clock {s t : State} {g : Fin 4} {m : Message} {f : Device → Device}
    (h : s.on (unlessReset (Device.receive g m f)) = .next t) (k : ∀ d : Device, SameOutside d (f d)) :
    s.dev.KeepsClock t.dev :=
  on_clock h (unlessReset_clock fun d => .of_same (receive_same g m k d))

/-- R104: an expiry of a run's timer keeps the clock sound. -/
theorem wait_clock {s t : State} {slot : Fin 32} {runs : Run → Bool} {f : Device → Run → Device}
    (h : s.on (unlessReset (Device.onWaitIn slot runs f)) = .next t) (k : ∀ (d : Device) r, SameOutside d (f d r)) :
    s.dev.KeepsClock t.dev :=
  on_clock h (unlessReset_clock (onWaitIn_clock slot runs k))

theorem exec_clock (c : Instr) (s t : State) (h : exec c s = .next t) : s.dev.KeepsClock t.dev := by
  cases c with
  | spiTransaction p clocked => exact on_clock h (transaction_clock p clocked)
  | undecodedRequest p bytes => exact on_clock h (undecoded_clock p bytes)
  | status p body => exact on_clock h (execute_clock p 0x01 body)
  | seek p body => exact on_clock h (execute_clock p 0x02 body)
  | read p body => exact on_clock h (execute_clock p 0x03 body)
  | readChanges p body => exact on_clock h (execute_clock p 0x04 body)
  | ackAttention p body => exact on_clock h (execute_clock p 0x05 body)
  | setNotify p body => exact on_clock h (execute_clock p 0x06 body)
  | clearCheck p body => exact on_clock h (execute_clock p 0x07 body)
  | portReset p body => exact on_clock h (execute_clock p 0x08 body)
  | registerCircuit p body => exact on_clock h (execute_clock p 0x10 body)
  | editCircuit p body => exact on_clock h (execute_clock p 0x11 body)
  | deleteCircuit p body => exact on_clock h (execute_clock p 0x12 body)
  | requestPermit p body => exact on_clock h (execute_clock p 0x13 body)
  | confirm p body => exact on_clock h (execute_clock p 0x14 body)
  | verify p body => exact on_clock h (execute_clock p 0x18 body)
  | baseline p body => exact on_clock h (execute_clock p 0x19 body)
  | commitBaseline p body => exact on_clock h (execute_clock p 0x1A body)
  | discardBaseline p body => exact on_clock h (execute_clock p 0x1B body)
  | clearBaseline p body => exact on_clock h (execute_clock p 0x1C body)
  | scheduleWindow p body => exact on_clock h (execute_clock p 0x20 body)
  | extendWindow p body => exact on_clock h (execute_clock p 0x21 body)
  | closeWindow p body => exact on_clock h (execute_clock p 0x22 body)
  | withdrawWindow p body => exact on_clock h (execute_clock p 0x23 body)
  | holdClock p body => exact on_clock h (execute_clock p 0x28 body)
  | releaseClock p body => exact on_clock h (execute_clock p 0x29 body)
  | setClock p body => exact on_clock h (execute_clock p 0x2A body)
  | alignClock p body => exact on_clock h (execute_clock p 0x2B body)
  | setTap p body => exact on_clock h (execute_clock p 0x30 body)
  | configure p body => exact on_clock h (execute_clock p 0x38 body)
  | storeConfig p body => exact on_clock h (execute_clock p 0x39 body)
  | storeEnd stage => exact on_clock h (unlessReset_clock (storeEnds_clock stage))
  | setNodeId p body => exact on_clock h (execute_clock p 0x3A body)
  | restart p body => exact on_clock h (execute_clock p 0x3B body)
  | powerOnReset => exact on_clock h fun _ => powerOn_clock rfl
  | rstAsserted => exact on_clock h fun _ => lineReset_clock rfl
  | rstReleased => exact on_clock h fun d => .thenIf (.rfl' d) (.of_clock rfl)
  | loadEnd bytes => exact on_clock h (unlessReset_clock (loadEnds_clock bytes))
  | clockTick => exact on_clock h dividerTick_clock
  | ppsEdge line high => exact on_clock h (lineChange_clock line high)
  | ppsLost => exact on_clock h (unlessReset_clock ppsExpires_clock)
  | holdLimit => exact on_clock h (unlessReset_clock holdExpires_clock)
  | requestTimer i => exact on_clock h (unlessReset_clock (requestTimer_clock i))
  | tapReading readings => exact on_clock h (unlessReset_clock fun d => .of_same (tapReadings_same readings d))
  | codeFrame tap channel word level => exact on_clock h (unlessReset_clock fun d => .of_same (putTaps_same d _))
  | freezeInChange line high => exact on_clock h (lineChange_clock line high)
  | eligibleAfter i kind => exact on_clock h (unlessReset_clock (eligiblePasses_clock i kind))
  | preemptTime i kind => exact on_clock h (unlessReset_clock (preemptPasses_clock i kind))
  | announce g cid run kind hop n dwell => exact message_clock h (announced_same g cid run kind hop n dwell)
  | armed g cid run => exact message_clock h (armedArrives_same g cid run)
  | armedWait slot => exact wait_clock h fun d r => (armedExpires_same d slot r).trans (arbitrate_same _ _ _)
  | dwell slot => exact wait_clock h fun d r => (dwellEnds_same d slot r).trans (arbitrate_same _ _ _)
  | stop g cid run => exact message_clock h (stopArrives_same g cid run)
  | stopWait slot => exact wait_clock h fun d r => (cancelDown_same d slot r).trans (arbitrate_same _ _ _)
  | report g cid run truncated hops => exact message_clock h (reportArrives_same g cid run truncated hops)
  | reportWait slot => exact wait_clock h fun d r => reportExpires_same d slot r
  | refuse g cid run hop reason => exact message_clock h (refuseArrives_same g cid run hop reason)
  | outcome g o => exact message_clock h (outcomeArrives_same g o)
  | outcomeWait slot => exact wait_clock h fun d _ => (dropRun_same d slot).trans (arbitrate_same _ _ _)
  | cancel g cid run => exact message_clock h (cancelArrives_same g cid run)
  | request g cid kind => exact message_clock h (requestArrives_same g cid kind)
  | hello g node degree => exact on_clock h (unlessReset_clock fun d => .of_same (helloArrives_same g node degree d))
  | frameDiscarded g bytes => exact on_clock h (framesArrive_clock g bytes)
  | silenceDeadline g => exact on_clock h (unlessReset_clock (silencePasses_clock g))
  | helloPeriod g => exact on_clock h (unlessReset_clock fun d => .thenIf (.of_clock rfl) (.of_clock rfl))
  | linkTransmit g => exact on_clock h (unlessReset_clock fun d => .of_same (link_same d g _))
  | notifyPulseEnd p =>
    exact on_clock h (unlessReset_clock fun d => onExpiry_clock d _ fun d => .of_same (port_same d p _))

/-- Settles O59: the clock is written by its own operations alone, each of which keeps it sound. -/
theorem clockStaysSound : Obligations.ClockStaysSound := by
  intro s t sound h
  unfold step at h
  split at h
  · exact on_clock h (f := Device.idle) (fun _ => .of_clock rfl) sound
  next c rest _ => exact exec_clock c { s with pending := rest } t h sound

end Sys2Proof.Machine

/-! SUPPORT. The window commands: what their bodies spell and in which order they are judged. -/

namespace Sys2Proof.Machine

/-! ### SCHEDULE-WINDOW (R54) -/

/-- R54: the values of a SCHEDULE-WINDOW body stand in their ranges and name something to watch. -/
def windowFits (now : Nat) (body : List Byte) : Prop :=
  (dayMinuteAt body 0).minute < 1440 ∧ (dayMinuteAt body 4).minute < 1440 ∧
    (dayMinuteAt body 0).number < (dayMinuteAt body 4).number ∧ now < (dayMinuteAt body 4).number ∧
    byteAt body 8 ≤ 60 ∧ 5 ≤ byteAt body 9 ∧ byteAt body 9 ≤ 240 ∧ byteAt body 10 < 16 ∧
    (byteAt body 10 ≠ 0 ∨ fieldAt body 11 2 ≠ 0)

/-- R54: the window that a SCHEDULE-WINDOW body describes. -/
def describedWindow (p : Fin 4) (body : List Byte) : Window where
  state := .scheduled
  creator := p
  openAt := dayMinuteAt body 0
  closeAt := dayMinuteAt body 4
  lead := byteAt body 8
  verifyLimit := byteAt body 9
  degrees := bitsToList 4 (byteAt body 10)
  taps := bitsToList 16 (fieldAt body 11 2)
  closing := false
  baseliningSince := none
  verifyingSince := none
  baselineSet := []
  members := []
  unresolved := []

theorem scheduledWindow_eq_some {p : Fin 4} {now : Nat} {body : List Byte} {x : Window} :
    scheduledWindow p now body = some x ↔ windowFits now body ∧ x = describedWindow p body := by
  have test : ((dayMinuteAt body 0).ok && (dayMinuteAt body 4).ok &&
      decide ((dayMinuteAt body 0).number < (dayMinuteAt body 4).number) &&
      decide (now < (dayMinuteAt body 4).number) && decide (byteAt body 8 ≤ 60) && inRange 5 (byteAt body 9) 240 &&
      decide (byteAt body 10 < 16) && (byteAt body 10 != 0 || fieldAt body 11 2 != 0)) = true ↔
      windowFits now body := by
    simp [windowFits, DayMinute.ok, inRange, and_assoc]
  unfold scheduledWindow
  dsimp only
  split
  next fits => exact ⟨fun h => ⟨test.mp fits, (Option.some.inj h).symm⟩, fun h => congrArg some h.2.symm⟩
  next unfit => exact ⟨(nomatch ·), fun h => absurd (test.mpr h.1) unfit⟩

theorem scheduledWindow_eq_none {p : Fin 4} {now : Nat} {body : List Byte} (unfit : ¬windowFits now body) :
    scheduledWindow p now body = none :=
  Option.eq_none_iff_forall_not_mem.mpr fun _ h => unfit (scheduledWindow_eq_some.mp h).1

theorem exec_scheduleWindow {s : State} {p : Fin 4} {body : List Byte} (h : s.dev.takesLine p = true)
    (length : body.length = 13) :
    exec (.scheduleWindow p body) s = .next (s.put (s.dev.scheduleWindow p body)) :=
  on_request_line h (by simp [length]) 0x20 (Device.scheduleWindow p body)

section

variable {d : Device} {p : Fin 4} {body : List Byte}

theorem scheduleWindow_unset (unset : d.clock.unset = true) :
    d.scheduleWindow p body = d.respond p 0x20 0x19 [] := if_pos unset

theorem scheduleWindow_unfit (set : d.clock.unset = false) (unfit : ¬windowFits d.wallNow body) :
    d.scheduleWindow p body = d.respond p 0x20 0x11 [] := by
  simp only [Device.scheduleWindow, set, scheduledWindow_eq_none unfit, rcBadArgument]
  rfl

theorem scheduleWindow_full (set : d.clock.unset = false) (fits : windowFits d.wallNow body)
    (full : ∀ w, (d.windows.get w).isSome = true) : d.scheduleWindow p body = d.respond p 0x20 0x14 [] := by
  simp only [Device.scheduleWindow, set, scheduledWindow_eq_some.mpr ⟨fits, rfl⟩, Table.firstFree_none.mpr full]
  rfl

theorem scheduleWindow_writes (set : d.clock.unset = false) (fits : windowFits d.wallNow body) {w : Fin 16}
    (free : d.windows.get w = none) (lowest : ∀ v, v < w → (d.windows.get v).isSome = true) :
    d.scheduleWindow p body =
      (d.moveWindow w (describedWindow p body)).respond p 0x20 0x00 [BitVec.ofNat 8 w.val] := by
  simp only [Device.scheduleWindow, set, scheduledWindow_eq_some.mpr ⟨fits, rfl⟩,
    Table.firstFree_eq_some.mpr ⟨free, lowest⟩, be_one]
  rfl

end

/-- Settles O23: the ranges by `scheduledWindow_eq_some`, the slot by the lowest free place of the table. -/
theorem scheduleWindowTakesTheLowestEmptySlot : Obligations.ScheduleWindowTakesTheLowestEmptySlot := by
  rintro s p body _ _ _ _ _ _ fits takes length rfl rfl rfl rfl rfl rfl hfits
  have fits_iff : fits ↔ windowFits s.dev.wallNow body := hfits
  rw [exec_scheduleWindow takes length]
  refine ⟨fun unset => ?_, fun set unfit => ?_, fun set fit full => ?_, fun w set fit free lowest => ?_⟩
  · rw [scheduleWindow_unset unset]
  · rw [scheduleWindow_unfit set (mt fits_iff.mpr unfit)]
  · rw [scheduleWindow_full set (fits_iff.mp fit) full]
  · rw [scheduleWindow_writes set (fits_iff.mp fit) free lowest]
    rfl

/-! ### The window named (section 3.4) -/

section

variable {d : Device} {p : Fin 4} {body : List Byte}

theorem onWindow_outOfRange (h : 16 ≤ byteAt body 0) (code : Nat) (act : Fin 16 → Window → Device) :
    d.onWindow p code body act = d.respond p code 0x11 [] := dif_neg (Nat.not_lt.mpr h)

theorem onWindow_inRange {w : Fin 16} (h : byteAt body 0 = w.val) (code : Nat) (act : Fin 16 → Window → Device) :
    d.onWindow p code body act = match d.windows.get w with
      | none => d.respond p code 0x17 []
      | some x => act w x := by
  have named : (⟨byteAt body 0, h ▸ w.isLt⟩ : Fin 16) = w := Fin.ext h
  unfold Device.onWindow
  rw [dif_pos (h ▸ w.isLt), named]
  rfl

theorem onWindow_empty {w : Fin 16} (h : byteAt body 0 = w.val) (empty : d.windows.get w = none) (code : Nat)
    (act : Fin 16 → Window → Device) : d.onWindow p code body act = d.respond p code 0x17 [] := by
  rw [onWindow_inRange h, empty]

theorem onWindow_named {w : Fin 16} {x : Window} (h : byteAt body 0 = w.val) (hx : d.windows.get w = some x)
    (code : Nat) (act : Fin 16 → Window → Device) : d.onWindow p code body act = act w x := by
  rw [onWindow_inRange h, hx]

end

/-! ### EXTEND-WINDOW, CLOSE-WINDOW and WITHDRAW-WINDOW (R55 to R57) -/

/-- R55: a close may be moved before the window opens, and in OPEN while nothing has closed it. -/
theorem extendable_iff {x : Window} : x.extendable = true ↔
    x.state = .scheduled ∨ x.state = .baselining ∨ (x.state = .opened ∧ x.closing = false) := by
  simp [Window.extendable, Window.notYetOpen, or_assoc]

/-- R57: a window may be withdrawn but in OPEN and VERIFYING. -/
theorem withdrawable_iff {x : Window} : x.withdrawable = true ↔ ¬(x.state = .opened ∨ x.state = .verifying) := by
  cases h : x.state <;> simp [Window.withdrawable, Window.notYetOpen, h]

section

variable {s : State} {p : Fin 4} {body : List Byte}

theorem exec_extendWindow (h : s.dev.takesLine p = true) (length : body.length = 5) :
    exec (.extendWindow p body) s = .next (s.put (s.dev.extendWindow p body)) :=
  on_request_line h (by simp [length]) 0x21 (Device.extendWindow p body)

theorem exec_closeWindow (h : s.dev.takesLine p = true) (length : body.length = 1) :
    exec (.closeWindow p body) s = .next (s.put (s.dev.closeWindow p body)) :=
  on_request_line h (by simp [length]) 0x22 (Device.closeWindow p body)

theorem exec_withdrawWindow (h : s.dev.takesLine p = true) (length : body.length = 1) :
    exec (.withdrawWindow p body) s = .next (s.put (s.dev.withdrawWindow p body)) :=
  on_request_line h (by simp [length]) 0x23 (Device.withdrawWindow p body)

end

section

variable {d : Device} {p : Fin 4} {body : List Byte} {w : Fin 16} {x : Window}

theorem extendWindow_fixed (hw : byteAt body 0 = w.val) (hx : d.windows.get w = some x)
    (fixed : ¬x.extendable = true) : d.extendWindow p body = d.respond p 0x21 0x17 [] := by
  rw [Device.extendWindow, onWindow_named hw hx]
  exact if_pos (by simpa using fixed)

/-- R55: a window whose close may be moved takes one that is a time of day and later than the old one. -/
theorem extendWindow_judged (hw : byteAt body 0 = w.val) (hx : d.windows.get w = some x)
    (movable : x.extendable = true) : d.extendWindow p body =
      if (dayMinuteAt body 1).minute < 1440 ∧ x.closeAt.number < (dayMinuteAt body 1).number then
        (d.putWindow w (some { x with closeAt := dayMinuteAt body 1 })).respond p 0x21 0x00 []
      else d.respond p 0x21 0x11 [] := by
  rw [Device.extendWindow, onWindow_named hw hx]
  dsimp only
  rw [if_neg (by simp [movable])]
  exact if_congr (by simp [DayMinute.ok]) rfl rfl

theorem closeWindow_notOpen (hw : byteAt body 0 = w.val) (hx : d.windows.get w = some x)
    (notOpen : x.state ≠ .opened) : d.closeWindow p body = d.respond p 0x22 0x17 [] := by
  rw [Device.closeWindow, onWindow_named hw hx]
  exact if_pos notOpen

/-- R56: an OPEN window is marked as closing, with an evaluation while the clock runs. -/
theorem closeWindow_open (hw : byteAt body 0 = w.val) (hx : d.windows.get w = some x) (opened : x.state = .opened) :
    d.closeWindow p body = if d.clock.held = true then (d.markClosing w x).respond p 0x22 0x00 []
      else Device.arbitrate d false ((d.markClosing w x).respond p 0x22 0x00 []).evaluate := by
  rw [Device.closeWindow, onWindow_named hw hx]
  exact if_neg (not_not_intro opened)

theorem withdrawWindow_fixed (hw : byteAt body 0 = w.val) (hx : d.windows.get w = some x)
    (fixed : ¬x.withdrawable = true) : d.withdrawWindow p body = d.respond p 0x23 0x17 [] := by
  rw [Device.withdrawWindow, onWindow_named hw hx]
  exact if_neg fixed

theorem withdrawWindow_empties (hw : byteAt body 0 = w.val) (hx : d.windows.get w = some x)
    (free : x.withdrawable = true) :
    d.withdrawWindow p body = ((d.putWindow w none).raiseLine .window).respond p 0x23 0x00 [] := by
  rw [Device.withdrawWindow, onWindow_named hw hx]
  exact if_pos free

end

/-- Settles O24: the slot named by the cases of `onWindow`, and each command on the window there by its state. -/
theorem windowIsExtendedClosedOrWithdrawn : Obligations.WindowIsExtendedClosedOrWithdrawn := by
  intro s p body put w takes hput
  have extending := fun l => exec_extendWindow (body := body) takes l
  have closing := fun l => exec_closeWindow (body := body) takes l
  have withdrawing := fun l => exec_withdrawWindow (body := body) takes l
  refine ⟨fun length high => ?_, fun length high => ⟨?_, ?_⟩, fun hw empty => ⟨fun length => ?_, fun length => ⟨?_, ?_⟩⟩,
    fun y hw hy => ⟨?extend, fun length => ⟨fun notOpen => ?_, ?close, fun fixed => ?_, fun free => ?_⟩⟩⟩
  · rw [extending length, Device.extendWindow, onWindow_outOfRange high]
  · rw [closing length, Device.closeWindow, onWindow_outOfRange high]
  · rw [withdrawing length, Device.withdrawWindow, onWindow_outOfRange high]
  · rw [extending length, Device.extendWindow, onWindow_empty hw empty]
  · rw [closing length, Device.closeWindow, onWindow_empty hw empty]
  · rw [withdrawing length, Device.withdrawWindow, onWindow_empty hw empty]
  case extend =>
    intro length c moves hc hmoves
    obtain rfl : c = dayMinuteAt body 1 := hc
    have movable : moves ↔ y.extendable = true := hmoves.trans extendable_iff.symm
    refine ⟨fun fixed => ?_, fun moved minute later => ?_, fun moved unfit => ?_⟩
    · rw [extending length, extendWindow_fixed hw hy (mt movable.mpr fixed)]
    · rw [extending length, extendWindow_judged hw hy (movable.mp moved), if_pos ⟨minute, later⟩, hput]
      rfl
    · rw [extending length, extendWindow_judged hw hy (movable.mp moved), if_neg (by exact unfit)]
  · rw [closing length, closeWindow_notOpen hw hy notOpen]
  case close =>
    rintro opened t d rfl rfl
    refine ⟨fun held => ?_, fun runs => ?_⟩
    · rw [closing length, closeWindow_open hw hy opened, if_pos held, hput]
      rfl
    · rw [closing length, closeWindow_open hw hy opened, if_neg (by simp [runs]), hput]
      rfl
  · rw [withdrawing length, withdrawWindow_fixed hw hy (fun free => withdrawable_iff.mp free fixed)]
  · rw [withdrawing length, withdrawWindow_empties hw hy (withdrawable_iff.mpr free), hput]
    rfl

end Sys2Proof.Machine

/-! SUPPORT. The clock commands, the end of a hold, the ticks with their two sources, and the loss of PPS. -/

namespace Sys2Proof.Machine

/-! ### Bytes of a number (R182) -/

theorem ofBe_lt (bs : List Byte) : ofBe bs < 256 ^ bs.length := by
  induction bs using List.reverseRecOn with
  | nil => exact Nat.one_pos
  | append_singleton bs b ih =>
    have last : b.toNat < 256 := b.isLt
    have append : ofBe (bs ++ [b]) = ofBe bs * 256 + b.toNat := List.foldl_concat _ _ _ _
    rw [append, List.length_append, List.length_singleton, pow_succ]
    omega

theorem fieldAt_lt (bs : List Byte) (at' n : Nat) : fieldAt bs at' n < 256 ^ n :=
  (ofBe_lt _).trans_le (Nat.pow_le_pow_right (by decide) (List.length_take_le _ _))

/-- R49, R182: a wall time as a body spells it stands in its ranges exactly where minute and second do. -/
theorem wallTimeAt_settable {body : List Byte} : (wallTimeAt body 0).settable = true ↔
    (wallTimeAt body 0).minute < 2048 ∧ (wallTimeAt body 0).second < 60 := by
  have day : (wallTimeAt body 0).day < 65536 := fieldAt_lt body 0 2
  rw [settable_iff]
  exact and_iff_right day

/-! ### HOLD-CLOCK, SET-CLOCK, ALIGN-CLOCK and RELEASE-CLOCK (R46, R48 to R50) -/

section

variable {s : State} {p : Fin 4}

theorem exec_holdClock (h : s.dev.takesLine p = true) :
    exec (.holdClock p []) s = .next (s.put (s.dev.holdClock p)) :=
  on_request_line h rfl 0x28 (Device.holdClock p)

theorem exec_releaseClock (h : s.dev.takesLine p = true) :
    exec (.releaseClock p []) s = .next (s.put (s.dev.releaseClock p)) :=
  on_request_line h rfl 0x29 (Device.releaseClock p)

theorem exec_alignClock (h : s.dev.takesLine p = true) :
    exec (.alignClock p []) s = .next (s.put (s.dev.alignClock p)) :=
  on_request_line h rfl 0x2B (Device.alignClock p)

theorem exec_setClock {body : List Byte} (h : s.dev.takesLine p = true) (length : body.length = 5) :
    exec (.setClock p body) s = .next (s.put (s.dev.setClock p body)) :=
  on_request_line h (by simp [length]) 0x2A (Device.setClock p body)

end

section

variable {d : Device} {p : Fin 4}

theorem holdClock_held (h : d.clock.held = true) : d.holdClock p = d.respond p 0x28 0x17 [] := if_pos h

theorem holdClock_running (h : d.clock.held = false) :
    d.holdClock p = (d.onClock (·.hold d.now)).respond p 0x28 0x00 [] := if_neg (by simp [h])

theorem releaseClock_held (h : d.clock.held = true) :
    d.releaseClock p = Device.arbitrate d false (d.respond p 0x29 0x00 []).endHold := if_pos h

theorem releaseClock_running (h : d.clock.held = false) : d.releaseClock p = d.respond p 0x29 0x17 [] :=
  if_neg (by simp [h])

theorem alignClock_held (h : d.clock.held = true) : d.alignClock p = d.respond p 0x2B 0x17 [] := if_pos h

theorem alignClock_running (h : d.clock.held = false) : d.alignClock p = Device.arbitrate d false
    ((d.respond p 0x2B 0x00 []).onClock fun c => { c with time := c.time.align }).evaluate := if_neg (by simp [h])

/-- R50: the rounding, by the second, the minute and the day. -/
theorem align_eq (t : WallTime) : t.align = if t.second < 30 then ⟨t.day, t.minute, 0⟩
    else if t.minute < 1439 then ⟨t.day, t.minute + 1, 0⟩ else ⟨(t.day + 1) % 65536, 0, 0⟩ := rfl

/-- R49: SET-CLOCK judges the ranges and then the hold. -/
theorem setClock_eq (d : Device) (p : Fin 4) (body : List Byte) : d.setClock p body =
    if ¬(wallTimeAt body 0).settable = true then d.respond p 0x2A 0x11 []
    else if ¬d.clock.held = true then d.respond p 0x2A 0x17 []
    else ((d.onClock (·.write (wallTimeAt body 0))).raiseLine .clock).respond p 0x2A 0x00 [] := by
  unfold Device.setClock
  dsimp only
  exact if_congr (by simp) rfl (if_congr (by simp) rfl rfl)

theorem setClock_outOfRange {body : List Byte} (h : ¬(wallTimeAt body 0).settable = true) :
    d.setClock p body = d.respond p 0x2A 0x11 [] := by rw [setClock_eq, if_pos h]

theorem setClock_running {body : List Byte} (h : (wallTimeAt body 0).settable = true) (runs : d.clock.held = false) :
    d.setClock p body = d.respond p 0x2A 0x17 [] := by
  rw [setClock_eq, if_neg (not_not_intro h), if_pos (by simp [runs])]

theorem setClock_writes {body : List Byte} (h : (wallTimeAt body 0).settable = true) (held : d.clock.held = true) :
    d.setClock p body = ((d.onClock (·.write (wallTimeAt body 0))).raiseLine .clock).respond p 0x2A 0x00 [] := by
  rw [setClock_eq, if_neg (not_not_intro h), if_neg (not_not_intro held)]

end

/-- R48: the hold limit, where it runs, ends the hold with CLOCK attention. -/
theorem holdExpires_eq {d : Device} {deadline : Nat} (h : d.clock.holdDeadline = some deadline) :
    d.holdExpires =
      Device.arbitrate (d.reach deadline) false ((d.reach deadline).endHold.raiseLine .clock) := by
  simp only [Device.holdExpires, Device.onExpiry, h]

/-- Settles O27: each command by whether the clock is held, SET-CLOCK by the ranges first, and the end of a hold by
`Clock.endHold`. -/
theorem clockIsHeldSetAlignedAndReleased : Obligations.ClockIsHeldSetAlignedAndReleased := by
  rintro s p _ _ _ rfl rfl rfl
  refine ⟨fun takes => ⟨fun held => ⟨?_, ?_, ?_⟩, fun runs => ⟨?_, ?_, ?_⟩, fun body v length hv => ?set⟩,
    fun reset deadline b hdeadline hb => ?limit⟩
  · rw [exec_holdClock takes, holdClock_held held]
  · rw [exec_alignClock takes, alignClock_held held]
  · rw [exec_releaseClock takes, releaseClock_held held]
    rfl
  · rw [exec_holdClock takes, holdClock_running runs]
    rfl
  · rw [exec_releaseClock takes, releaseClock_running runs]
  · rw [exec_alignClock takes, alignClock_running runs]
    simp only [align_eq]
    rfl
  case set =>
    obtain rfl : v = wallTimeAt body 0 := hv
    rw [exec_setClock takes length]
    refine ⟨fun bad => ?_, fun minute second runs => ?_, fun minute second held => ?_⟩
    · have outside : ¬(wallTimeAt body 0).settable = true := by
        rw [wallTimeAt_settable]
        omega
      rw [setClock_outOfRange outside]
    · rw [setClock_running (wallTimeAt_settable.mpr ⟨minute, second⟩) runs]
    · rw [setClock_writes (wallTimeAt_settable.mpr ⟨minute, second⟩) held]
      rfl
  case limit =>
    subst hb
    have expires := on_unlessReset reset Device.holdExpires
    rw [holdExpires_eq hdeadline] at expires
    exact expires

/-! ### Ticks (R44, R45, R47) -/

/-- R44: the time after a tick, by the second, the minute and the day. -/
theorem tick_eq (t : WallTime) : t.tick = if t.second < 59 then { t with second := t.second + 1 }
    else if t.minute < 1439 then ⟨t.day, t.minute + 1, 0⟩ else ⟨(t.day + 1) % 65536, 0, 0⟩ := rfl

section

variable {d : Device}

/-- R47: a second tick during a hold sets SLIP, with CLOCK attention. -/
theorem tickTaken_slip (held : d.clock.held = true) (pending : d.clock.pendingTick = true) :
    d.tickTaken = (d.onClock fun c => { c with slip := true }).raiseLine .clock := by
  simp [Device.tickTaken, Device.tick, held, pending]

/-- R47: the first tick during a hold is kept. -/
theorem tickTaken_pending (held : d.clock.held = true) (first : d.clock.pendingTick = false) :
    d.tickTaken = d.onClock fun c => { c with pendingTick := true } := by
  simp [Device.tickTaken, Device.tick, held, first]

/-- R44: a tick within a minute. -/
theorem tickTaken_second (runs : d.clock.held = false) (within : d.clock.time.second < 59) :
    d.tickTaken = d.onClock fun c => { c with time := c.time.tick } := by
  have carries : d.clock.time.carries = false := by simpa [WallTime.carries] using within
  simp [Device.tickTaken, Device.tick, runs, carries]

/-- R44, R58, R94: a tick that carries the minute is followed by an evaluation and the Arbiter's judgement. -/
theorem tickTaken_minute (runs : d.clock.held = false) (ends : 59 ≤ d.clock.time.second) :
    d.tickTaken = Device.arbitrate d false (d.onClock fun c => { c with time := c.time.tick }).evaluate := by
  have carries : d.clock.time.carries = true := by simpa [WallTime.carries] using ends
  simp [Device.tickTaken, thenArbitrate, Device.tick, runs, carries]

end

/-! ### The two sources of ticks (R45, R176) -/

theorem dividerTick_internal {d : Device} (h : d.clock.source = .internal) : d.dividerTick =
    ((d.reach d.clock.dividerDue).onClock fun c => { c with dividerDue := c.dividerDue + seconds 1 }).tickTaken := by
  simp only [Device.dividerTick, h]

theorem dividerTick_pps {d : Device} (h : d.clock.source = .pps) : d.dividerTick = d := by
  simp only [Device.dividerTick, h]

/-- R45: the edge written to the clock, CLOCK attention where it restores the source, and the tick it is. -/
theorem ppsEdge_eq (d : Device) : d.ppsEdge =
    (if d.clock.source = .internal then (d.onClock (·.edge d.now)).raiseLine .clock
      else d.onClock (·.edge d.now)).tickTaken := by
  unfold Device.ppsEdge
  dsimp only
  rw [if_congr beq_iff_eq rfl rfl]

/-- R45, R176: a change of a line's level that makes PPS-IN rise is an edge. -/
theorem lineChange_edge {d : Device} {l : Fin 8} {high : Bool} (low : d.ppsIn = false)
    (rises : Device.ppsIn { d with lineIn := d.lineIn.set l high } = true) :
    d.lineChange l high = Device.ppsEdge { d with lineIn := d.lineIn.set l high } := by
  unfold Device.lineChange
  dsimp only
  rw [if_pos (by simp [low, rises])]

/-- R93, R176: a change of a line's level that neither makes PPS-IN rise nor deasserts FREEZE-IN is the level alone. -/
theorem lineChange_level {d : Device} {l : Fin 8} {high : Bool}
    (noEdge : d.ppsIn = true ∨ Device.ppsIn { d with lineIn := d.lineIn.set l high } = false)
    (noThaw : d.freezeIn = false ∨ Device.freezeIn { d with lineIn := d.lineIn.set l high } = true) :
    d.lineChange l high = { d with lineIn := d.lineIn.set l high } := by
  unfold Device.lineChange
  dsimp only
  rw [if_neg (by rcases noEdge with e | e <;> simp [e]), if_neg (by rcases noThaw with e | e <;> simp [e])]

/-- R45: PPS supervision that runs out. -/
theorem ppsExpires_eq {d : Device} {deadline : Nat} (h : d.clock.ppsDeadline = some deadline) :
    d.ppsExpires = ((d.reach deadline).onClock (·.losePps deadline)).raiseLine .clock := by
  simp only [Device.ppsExpires, h]

/-- What the statement calls a tick taken is `Device.tickTaken`: a clock is in a hold with or without a pending tick, or
it runs within a minute or at its end. -/
theorem taken_eq_tickTaken {taken : Device → Device}
    (h : ∀ d : Device,
      (d.clock.held = true → d.clock.pendingTick = true →
        taken d = (d.onClock fun c => { c with slip := true }).raiseLine .clock) ∧
      (d.clock.held = true → d.clock.pendingTick = false →
        taken d = d.onClock fun c => { c with pendingTick := true }) ∧
      (d.clock.held = false → d.clock.time.second < 59 →
        taken d = d.onClock fun c => { c with time := c.time.tick }) ∧
      (d.clock.held = false → 59 ≤ d.clock.time.second →
        taken d = Device.arbitrate d false (d.onClock fun c => { c with time := c.time.tick }).evaluate)) :
    taken = Device.tickTaken := by
  funext d
  obtain ⟨slip, pending, second, minute⟩ := h d
  cases held : d.clock.held with
  | true =>
    cases tick : d.clock.pendingTick with
    | true => rw [slip held tick, tickTaken_slip held tick]
    | false => rw [pending held tick, tickTaken_pending held tick]
  | false =>
    rcases Nat.lt_or_ge d.clock.time.second 59 with within | ends
    · rw [second held within, tickTaken_second held within]
    · rw [minute held ends, tickTaken_minute held ends]

/-- Settles O28: a tick by `taken_eq_tickTaken`, its sources by the divider and by the edges of PPS-IN, the loss by
`ppsExpires_eq`. -/
theorem ticksComeFromDividerOrPps : Obligations.TicksComeFromDividerOrPps := by
  refine ⟨tick_eq, ?_⟩
  rintro s _ taken rfl htaken
  obtain rfl : taken = Device.tickTaken := taken_eq_tickTaken htaken
  refine ⟨fun internal => ?_, fun pps => ?_, ?levels, fun reset deadline hdeadline => ?_⟩
  · show s.on Device.dividerTick = _
    rw [on_eq_put, dividerTick_internal internal]
    rfl
  · show s.on Device.dividerTick = _
    rw [on_eq_put, dividerTick_pps pps, put_self]
  case levels =>
    rintro line high _ rfl
    refine ⟨?_, fun noEdge noThaw => ?_⟩
    · rintro low rises _ rfl
      show s.on (Device.lineChange line high) = _
      rw [on_eq_put, lineChange_edge low rises, ppsEdge_eq]
      rfl
    · show s.on (Device.lineChange line high) = _
      rw [on_eq_put, lineChange_level noEdge noThaw]
  · have lost := on_unlessReset reset Device.ppsExpires
    rw [ppsExpires_eq hdeadline] at lost
    exact lost

end Sys2Proof.Machine

/-! SUPPORT. The walk of one window: the record it leaves, when it touches the part at all, and what it leaves of the
circuit records. -/

namespace Sys2Proof.Machine

/-! ### The record that each transition leaves (R59 to R62) -/

abbrev Window.entersBaselining (d : Device) (x : Window) : Prop :=
  x.state = .scheduled ∧ 0 < x.lead ∧ x.openAt.number ≤ d.wallNow + x.lead

abbrev Window.entersOpen (d : Device) (x : Window) : Prop :=
  (x.state = .scheduled ∨ x.state = .baselining) ∧ x.openAt.number ≤ d.wallNow

abbrev Window.entersVerifying (d : Device) (x : Window) : Prop :=
  x.state = .opened ∧ (x.closing = true ∨ x.closeAt.number ≤ d.wallNow)

abbrev Window.entersDone (x : Window) : Prop := x.state.awaits = true ∧ x.unresolved = []

abbrev Window.entersOverdue (d : Device) (x : Window) : Prop :=
  x.state = .verifying ∧ x.limitPassed d.wallNow = true

def Window.afterBaselining (d : Device) (x : Window) : Window :=
  if x.entersBaselining d then
    { x with state := .baselining, baseliningSince := some ⟨d.clock.time, d.now⟩, baselineSet := d.scopeOf x }
  else x

def Window.afterOpen (d : Device) (x : Window) : Window :=
  if x.entersOpen d then { x with state := .opened, members := d.scopeOf x } else x

def Window.afterVerifying (d : Device) (x : Window) : Window :=
  if x.entersVerifying d then
    { x with state := .verifying, verifyingSince := some d.clock.time, closing := false, unresolved := x.members }
  else x

def Window.afterDone (x : Window) : Window := if x.entersDone then { x with state := .done } else x

def Window.afterOverdue (d : Device) (x : Window) : Window :=
  if x.entersOverdue d then { x with state := .overdue } else x

/-- R61, R62: the record after the three transitions of a window that has opened. -/
def Window.afterClose (d : Device) (x : Window) : Window := (x.afterVerifying d).afterDone.afterOverdue d

/-- R58: the record after the walk. -/
def Window.walked (d : Device) (x : Window) : Window := ((x.afterBaselining d).afterOpen d).afterClose d

/-! ### A window on its way (R58, R63) -/

/-- R59 to R62: how far a window has come. -/
def WindowState.rank : WindowState → Nat
  | .scheduled => 0
  | .baselining => 1
  | .opened => 2
  | .verifying => 3
  | .overdue => 4
  | .done => 5

theorem rank_injective {a b : WindowState} (h : a.rank = b.rank) : a = b := by
  revert h
  cases a <;> cases b <;> decide

/-- R62: the states in which members may be resolved. -/
theorem awaits_iff {s : WindowState} : s.awaits = true ↔ s = .verifying ∨ s = .overdue := by
  simp [WindowState.awaits]

/-- In the walk of window `w` of `d`, the part `e` with the record `x` goes to `f` with `y`: the state goes forward with
WINDOW attention, or nothing happens. -/
structure Advances (d : Device) (w : Fin 16) (x : Window) (e : Device) (y : Window) (f : Device) : Prop where
  walked : Walked d w y f
  forward : x.state.rank ≤ y.state.rank
  stays : y.state = x.state → f = e
  moves : y.state ≠ x.state → Told d f

namespace Advances

variable {d e f g : Device} {w : Fin 16} {x y z : Window}

theorem stay (h : Walked d w x e) : Advances d w x e x e := ⟨h, le_rfl, fun _ => rfl, fun ne => absurd rfl ne⟩

theorem move (h : Walked d w y f ∧ Told d f) (forward : x.state.rank < y.state.rank) : Advances d w x e y f :=
  ⟨h.1, forward.le, fun eq => absurd (congrArg WindowState.rank eq) forward.ne', fun _ => h.2⟩

theorem trans (h : Advances d w x e y f) (k : Advances d w y f z g) : Advances d w x e z g where
  walked := k.walked
  forward := h.forward.trans k.forward
  stays eq := by
    have between : y.state = x.state := rank_injective (le_antisymm (eq ▸ k.forward) h.forward)
    rw [k.stays (eq.trans between.symm), h.stays between]
  moves ne := by
    by_cases later : z.state = y.state
    · rw [k.stays later]
      exact h.moves (later ▸ ne)
    · exact k.moves later

theorem of_transition {c : Prop} [Decidable c] (h : Walked d w x e) (enters : c → Walked d w y f ∧ Told d f)
    (waits : ¬c → f = e) (forward : c → x.state.rank < y.state.rank) :
    Advances d w x e (if c then y else x) f := by
  split
  next holds => exact .move (enters holds) (forward holds)
  next fails => rw [waits fails]; exact .stay h

theorem baselining (h : Walked d w x e) : Advances d w x e (x.afterBaselining d) (e.toBaselining w) := by
  obtain ⟨enters, waits⟩ := h.toBaselining
  refine of_transition h (fun c => ?_) waits fun c => by simp [c.1, WindowState.rank]
  obtain ⟨walked, told, -⟩ := enters c _ rfl
  exact ⟨walked, told⟩

theorem opening (h : Walked d w x e) : Advances d w x e (x.afterOpen d) (e.toOpen w) := by
  obtain ⟨enters, waits⟩ := h.toOpen
  refine of_transition h (fun c => ?_) waits fun c => by rcases c.1 with s | s <;> simp [s, WindowState.rank]
  obtain ⟨walked, told, -⟩ := enters c
  exact ⟨walked, told⟩

theorem verifying (h : Walked d w x e) : Advances d w x e (x.afterVerifying d) (e.toVerifying w) := by
  obtain ⟨enters, waits⟩ := h.toVerifying
  refine of_transition h (fun c => ?_) waits fun c => by simp [c.1, WindowState.rank]
  obtain ⟨walked, told, -⟩ := enters c
  exact ⟨walked, told⟩

theorem done (h : Walked d w x e) : Advances d w x e x.afterDone (e.toDone w) := by
  obtain ⟨enters, waits⟩ := h.toDone
  refine of_transition h (fun c => ?_) waits fun c => by
    rcases awaits_iff.mp c.1 with s | s <;> simp [s, WindowState.rank]
  obtain ⟨walked, told, -⟩ := enters c
  exact ⟨walked, told⟩

theorem overdue (h : Walked d w x e) : Advances d w x e (x.afterOverdue d) (e.toOverdue w) := by
  obtain ⟨enters, waits⟩ := h.toOverdue
  refine of_transition h (fun c => ?_) waits fun c => by simp [c.1, WindowState.rank]
  obtain ⟨walked, told, -⟩ := enters c
  exact ⟨walked, told⟩

/-- R60 to R62: the transitions after the one to BASELINING. -/
theorem fromOpen (h : Walked d w x e) :
    Advances d w x e ((x.afterOpen d).afterClose d)
      (((e.toOpen w).toVerifying w |>.toDone w).toOverdue w) := by
  have opened := opening h
  have verified := opened.trans (verifying opened.walked)
  have resolved := verified.trans (done verified.walked)
  exact resolved.trans (overdue resolved.walked)

/-- R58: the walk of one window. -/
theorem walk (h : d.windows.get w = some x) : Advances d w x d (x.walked d) (d.walkWindow w) := by
  have baselined := baselining (Walked.start h)
  exact baselined.trans (fromOpen baselined.walked)

end Advances

/-! ### What the transitions leave of the records of the circuits (R59, R60) -/

/-- R53: the scope of a window follows from its degrees and taps. -/
theorem scopeOf_congr {d : Device} {x y : Window} (degrees : y.degrees = x.degrees) (taps : y.taps = x.taps) :
    d.scopeOf y = d.scopeOf x := by
  simp only [Device.scopeOf, Device.inScope, degrees, taps]

theorem scopeOf_afterBaselining (d : Device) (x : Window) : d.scopeOf (x.afterBaselining d) = d.scopeOf x := by
  unfold Window.afterBaselining
  split
  · exact scopeOf_congr rfl rfl
  · rfl

theorem toBaselining_circuits {d : Device} {w : Fin 16} {x : Window} (h : d.windows.get w = some x) :
    (d.toBaselining w).circuits = d.circuits := by
  obtain ⟨enters, waits⟩ := (Walked.start h).toBaselining
  by_cases c : x.entersBaselining d
  · obtain ⟨-, -, same, -⟩ := enters c _ rfl
    exact same
  · rw [waits c]

theorem toVerifying_circuits (d : Device) (w : Fin 16) : (d.toVerifying w).circuits = d.circuits := by
  unfold Device.toVerifying
  split
  · rfl
  · split <;> rfl

theorem toDone_circuits (d : Device) (w : Fin 16) : (d.toDone w).circuits = d.circuits := by
  unfold Device.toDone
  split
  · rfl
  · split <;> rfl

theorem toOverdue_circuits (d : Device) (w : Fin 16) : (d.toOverdue w).circuits = d.circuits := by
  unfold Device.toOverdue
  split
  · rfl
  · split <;> rfl

/-- R60: the walk leaves the records as the step to OPEN does. -/
theorem walkWindow_circuits (d : Device) (w : Fin 16) :
    (d.walkWindow w).circuits = ((d.toBaselining w).toOpen w).circuits := by
  rw [Device.walkWindow, toOverdue_circuits, toDone_circuits, toVerifying_circuits]

/-- R60: at an OPEN the walk commits the candidates of the members. -/
theorem walkWindow_commits {d : Device} {w : Fin 16} {x : Window} (h : d.windows.get w = some x)
    (opens : (x.afterBaselining d).entersOpen d) (i : Fin 256) :
    (d.walkWindow w).circuit i = (d.circuit i).map fun c =>
      if i ∈ d.scopeOf x then c.commitSince (x.afterBaselining d).baseliningSince else c := by
  obtain ⟨enters, -⟩ := (Advances.baselining (Walked.start h)).walked.toOpen
  obtain ⟨-, -, committed⟩ := enters opens
  have before : (d.toBaselining w).circuit i = d.circuit i := by
    rw [Device.circuit, Device.circuit, toBaselining_circuits h]
  rw [Device.circuit, walkWindow_circuits, ← before, ← scopeOf_afterBaselining]
  exact committed i

/-- R60: where no window opens, the walk leaves every record as it was. -/
theorem walkWindow_commits_none {d : Device} {w : Fin 16} {x : Window} (h : d.windows.get w = some x)
    (waits : ¬(x.afterBaselining d).entersOpen d) : (d.walkWindow w).circuits = d.circuits := by
  obtain ⟨-, stays⟩ := (Advances.baselining (Walked.start h)).walked.toOpen
  rw [walkWindow_circuits, stays waits, toBaselining_circuits h]

/-! ### Where the walk takes a window, by its state (R59 to R62) -/

section

variable {d : Device} {x : Window}

theorem afterBaselining_of_not (h : ¬x.entersBaselining d) : x.afterBaselining d = x := if_neg h

theorem afterOpen_of_not (h : ¬x.entersOpen d) : x.afterOpen d = x := if_neg h

theorem afterVerifying_of_not (h : ¬x.entersVerifying d) : x.afterVerifying d = x := if_neg h

theorem afterDone_of_not (h : ¬x.entersDone) : x.afterDone = x := if_neg h

theorem afterOverdue_of_not (h : ¬x.entersOverdue d) : x.afterOverdue d = x := if_neg h

theorem not_entersBaselining (s : x.state ≠ .scheduled) : ¬x.entersBaselining d := fun c => s c.1

theorem not_entersVerifying (s : x.state ≠ .opened) : ¬x.entersVerifying d := fun c => s c.1

theorem not_entersDone (s : x.state ≠ .verifying) (s' : x.state ≠ .overdue) : ¬x.entersDone := fun c =>
  (awaits_iff.mp c.1).elim s s'

theorem not_entersOverdue (s : x.state ≠ .verifying) : ¬x.entersOverdue d := fun c => s c.1

/-- R61, R62: a window that is yet to open, one that is OPEN and not due, and one that is DONE is not closed. -/
theorem afterClose_of_not (h : ¬x.entersVerifying d) (s : x.state ≠ .verifying) (s' : x.state ≠ .overdue) :
    x.afterClose d = x := by
  rw [Window.afterClose, afterVerifying_of_not h, afterDone_of_not (not_entersDone s s'),
    afterOverdue_of_not (not_entersOverdue s)]

theorem afterClose_of_idle (h : x.state = .scheduled ∨ x.state = .baselining ∨ x.state = .done) :
    x.afterClose d = x := by
  rcases h with s | s | s <;>
    exact afterClose_of_not (not_entersVerifying (by simp [s])) (by simp [s]) (by simp [s])

/-- R61: an OPEN window stays so until its close time or its closing flag. -/
theorem afterClose_of_open (s : x.state = .opened) (h : ¬(x.closing = true ∨ x.closeAt.number ≤ d.wallNow)) :
    x.afterClose d = x := afterClose_of_not (fun c => h c.2) (by simp [s]) (by simp [s])

/-- R62: a window that awaits resolutions and has nothing unresolved is DONE. -/
theorem afterClose_of_resolved (s : x.state = .verifying ∨ x.state = .overdue) (h : x.unresolved = []) :
    x.afterClose d = { x with state := .done } := by
  have opened : x.state ≠ .opened := by rcases s with s | s <;> simp [s]
  have done : x.afterDone = { x with state := .done } := if_pos ⟨awaits_iff.mpr s, h⟩
  rw [Window.afterClose, afterVerifying_of_not (not_entersVerifying opened), done]
  exact afterOverdue_of_not (not_entersOverdue nofun)

/-- R62: a window with something unresolved is OVERDUE once its verify limit has passed. -/
theorem afterClose_of_unresolved (s : x.state = .verifying ∨ x.state = .overdue) (h : x.unresolved ≠ []) :
    x.afterClose d = x.afterOverdue d := by
  have opened : x.state ≠ .opened := by rcases s with s | s <;> simp [s]
  rw [Window.afterClose, afterVerifying_of_not (not_entersVerifying opened), afterDone_of_not fun c => h c.2]

theorem afterClose_of_verifying (s : x.state = .verifying) {t : WallTime} (since : x.verifyingSince = some t)
    (h : x.unresolved ≠ []) : x.afterClose d =
      if t.number + x.verifyLimit ≤ d.wallNow then { x with state := .overdue } else x := by
  have passed : x.entersOverdue d ↔ t.number + x.verifyLimit ≤ d.wallNow := by
    simp [Window.entersOverdue, Window.limitPassed, s, since]
  rw [afterClose_of_unresolved (.inl s) h]
  exact if_congr passed rfl rfl

theorem afterClose_of_overdue (s : x.state = .overdue) (h : x.unresolved ≠ []) : x.afterClose d = x := by
  rw [afterClose_of_unresolved (.inr s) h, afterOverdue_of_not (not_entersOverdue (by simp [s]))]

/-- R61, R62: an OPEN window that closes goes to VERIFYING, or to DONE where it has no member; its verify limit does
not pass in the minute in which it closes. -/
theorem afterClose_of_closing (s : x.state = .opened) (h : x.closing = true ∨ x.closeAt.number ≤ d.wallNow)
    (limit : 0 < x.verifyLimit) : x.afterClose d = { x with
      state := if x.members = [] then .done else .verifying
      verifyingSince := some d.clock.time, closing := false, unresolved := x.members } := by
  have verified : x.afterVerifying d = { x with
      state := .verifying, verifyingSince := some d.clock.time, closing := false, unresolved := x.members } :=
    if_pos ⟨s, h⟩
  have closed : x.afterClose d = (x.afterVerifying d).afterClose d := by
    rw [Window.afterClose, Window.afterClose,
      afterVerifying_of_not (x := x.afterVerifying d) (not_entersVerifying (by simp [verified]))]
  rw [closed, verified]
  by_cases members : x.members = []
  · rw [afterClose_of_resolved (.inl rfl) members, if_pos members]
  · have within : ¬d.clock.time.number + x.verifyLimit ≤ d.wallNow := by
      rw [Device.wallNow]
      omega
    rw [afterClose_of_verifying rfl rfl members, if_neg within, if_neg members]

/-- R58: a window that has opened walks from there. -/
theorem walked_of_opened (h : ¬(x.state = .scheduled ∨ x.state = .baselining)) : x.walked d = x.afterClose d := by
  rw [not_or] at h
  rw [Window.walked, afterBaselining_of_not (fun c => h.1 c.1), afterOpen_of_not (fun c => c.1.elim h.1 h.2)]

/-- R59, R60: the record of a window that opens: captured for its baselines first, where it has a lead that came. -/
def Window.openedNow (d : Device) (x : Window) : Window :=
  { x with
    state := .opened, members := d.scopeOf x
    baseliningSince := if x.state = .scheduled ∧ 0 < x.lead then some ⟨d.clock.time, d.now⟩ else x.baseliningSince
    baselineSet := if x.state = .scheduled ∧ 0 < x.lead then d.scopeOf x else x.baselineSet }

theorem entersBaselining_iff (come : x.openAt.number ≤ d.wallNow) :
    x.entersBaselining d ↔ x.state = .scheduled ∧ 0 < x.lead := by
  constructor
  · rintro ⟨s, lead, -⟩; exact ⟨s, lead⟩
  · rintro ⟨s, lead⟩; exact ⟨s, lead, come.trans (Nat.le_add_right _ _)⟩

theorem entersOpen_afterBaselining : (x.afterBaselining d).entersOpen d ↔ x.entersOpen d := by
  unfold Window.afterBaselining
  split
  next c => simp [Window.entersOpen, c.1]
  next => rfl

/-- R60: a window whose open time has come opens, and is closed from there. -/
theorem walked_of_opens (early : x.state = .scheduled ∨ x.state = .baselining) (come : x.openAt.number ≤ d.wallNow) :
    x.walked d = (x.openedNow d).afterClose d := by
  have opens : (x.afterBaselining d).entersOpen d := entersOpen_afterBaselining.mpr ⟨early, come⟩
  have record : (x.afterBaselining d).afterOpen d = x.openedNow d := by
    rw [Window.afterOpen, if_pos opens, scopeOf_afterBaselining, Window.afterBaselining, Window.openedNow]
    simp only [entersBaselining_iff come]
    split <;> rfl
  rw [Window.walked, record]

/-- R59, R60: a window whose open time has not come goes to BASELINING at most. -/
theorem walked_of_early (early : x.state = .scheduled ∨ x.state = .baselining) (yet : ¬x.openAt.number ≤ d.wallNow) :
    x.walked d = x.afterBaselining d := by
  have closed : ¬(x.afterBaselining d).entersOpen d := fun c => yet (entersOpen_afterBaselining.mp c).2
  rw [Window.walked, afterOpen_of_not closed]
  refine afterClose_of_idle ?_
  unfold Window.afterBaselining
  split
  · exact .inr (.inl rfl)
  · exact early.imp_right .inl

end

/-! ### A baseline asked for, and a candidate committed (R59, R60) -/

/-- R59: what is asked for a captured record is `Device.askBaseline`: nothing for a free entry, an entry of the queue at
a HEAD and a REQUEST upstream at any other. -/
theorem ask_eq_askBaseline {ask : Device → Fin 256 → Device}
    (h : ∀ b i, (b.circuit i = none → ask b i = b) ∧ ∀ c, b.circuit i = some c →
      ask b i = if c.desc.role = .head then b.enqueue i .baseline .normal
        else b.sendOpt c.desc.ingress.degree? (.request c.cid .baseline)) : ask = Device.askBaseline := by
  funext b i
  obtain ⟨free, taken⟩ := h b i
  unfold Device.askBaseline
  split
  next hc => exact free hc
  next c hc => exact taken c hc

/-- R59: a window that goes to BASELINING and no further asks for the baselines of its scope. -/
theorem walkWindow_baselining {d : Device} {w : Fin 16} {x : Window} (h : d.windows.get w = some x)
    (enters : x.entersBaselining d) (yet : ¬x.openAt.number ≤ d.wallNow) :
    d.walkWindow w = (d.scopeOf x).foldl Device.askBaseline (d.moveWindow w (x.afterBaselining d)) := by
  have rest := Advances.fromOpen (Advances.baselining (Walked.start h)).walked
  have stays : ((x.afterBaselining d).afterOpen d).afterClose d = x.afterBaselining d :=
    walked_of_early (.inl enters.1) yet
  have record : x.afterBaselining d =
      { x with state := .baselining, baseliningSince := some ⟨d.clock.time, d.now⟩, baselineSet := d.scopeOf x } :=
    if_pos enters
  obtain ⟨-, -, -, asked⟩ := (Walked.start h).toBaselining.1 enters _ record
  rw [← asked]
  exact rest.stays (by rw [stays])

/-- R60: a candidate captured after the instant is committed, and one captured before it is kept. -/
theorem commitSince_eq {c : Circuit} {b : Candidate} (h : c.candidate = some b) (since : Since) :
    c.commitSince (some since) = if since.instant < b.capturedAt then
      { c with committed := some ⟨b.inLevel, b.outLevel, b.time⟩, candidate := none } else c := by
  simp only [Circuit.commitSince, h]

theorem commitSince_noCandidate {c : Circuit} (h : c.candidate = none) (since : Option Since) :
    c.commitSince since = c := by
  cases since <;> simp only [Circuit.commitSince, h]

theorem commitSince_noInstant (c : Circuit) : c.commitSince none = c := rfl

section

variable {d : Device} {w : Fin 16} {x : Window} {i : Fin 256} {c : Circuit}

theorem afterBaselining_of_baselining (s : x.state = .baselining) : x.afterBaselining d = x :=
  afterBaselining_of_not (not_entersBaselining (by simp [s]))

/-- R60: a window that leaves BASELINING for OPEN commits the candidates of its scope captured since. -/
theorem walkWindow_commits_candidate (h : d.windows.get w = some x) (s : x.state = .baselining)
    (come : x.openAt.number ≤ d.wallNow) {since : Since} (hs : x.baseliningSince = some since)
    (hc : d.circuit i = some c) {b : Candidate} (hb : c.candidate = some b) :
    (d.walkWindow w).circuit i = some (if i ∈ d.scopeOf x ∧ since.instant < b.capturedAt then
      { c with committed := some ⟨b.inLevel, b.outLevel, b.time⟩, candidate := none } else c) := by
  have opens : (x.afterBaselining d).entersOpen d := entersOpen_afterBaselining.mpr ⟨.inr s, come⟩
  rw [walkWindow_commits h opens, afterBaselining_of_baselining s, hs, hc, Option.map_some, commitSince_eq hb, ite_and]

/-- R60: a record without a candidate is left alone by every walk. -/
theorem walkWindow_keeps_noCandidate (h : d.windows.get w = some x) (hc : d.circuit i = some c)
    (bare : c.candidate = none) : (d.walkWindow w).circuit i = some c := by
  by_cases opens : (x.afterBaselining d).entersOpen d
  · rw [walkWindow_commits h opens, hc, Option.map_some, commitSince_noCandidate bare, ite_self]
  · rw [Device.circuit, walkWindow_commits_none h opens]
    exact hc

/-- R60: a window that does not leave BASELINING for OPEN touches no record: one that opens from SCHEDULED has captured
its instant in this walk, after every candidate, or has none. -/
theorem walkWindow_keeps_circuits (h : d.windows.get w = some x)
    (stays : x.state = .baselining → ¬x.openAt.number ≤ d.wallNow)
    (old : x.state = .scheduled → x.baseliningSince = none ∧
      ∀ i c b, d.circuit i = some c → c.candidate = some b → b.capturedAt ≤ d.now) :
    (d.walkWindow w).circuits = d.circuits := by
  by_cases opens : (x.afterBaselining d).entersOpen d
  · obtain ⟨s, come⟩ := entersOpen_afterBaselining.mp opens
    obtain ⟨noSince, captured⟩ := old (s.resolve_right fun s => stays s come)
    have kept : ∀ i c, d.circuit i = some c → c.commitSince (x.afterBaselining d).baseliningSince = c := by
      intro i c hc
      unfold Window.afterBaselining
      split
      · cases hb : c.candidate with
        | none => exact commitSince_noCandidate hb _
        | some b => rw [commitSince_eq hb, if_neg (Nat.not_lt.mpr (captured i c b hc hb))]
      · rw [noSince, commitSince_noInstant]
    refine Table.ext_get fun i => ?_
    have commits := walkWindow_commits h opens i
    cases hc : d.circuit i with
    | none => rw [hc] at commits; exact commits.trans hc.symm
    | some c => rw [hc, Option.map_some, kept i c hc, ite_self] at commits; exact commits.trans hc.symm
  · exact walkWindow_commits_none h opens

end

/-! ### The evaluation (R58, R64) -/

/-- R64: a window that is yet to open. -/
theorem notYetOpen_iff {x : Window} : x.notYetOpen = true ↔ x.state = .scheduled ∨ x.state = .baselining := by
  simp [Window.notYetOpen]

/-- R64: a window that is yet to open, or OPEN. -/
theorem notYetClosed_iff {x : Window} :
    x.notYetClosed = true ↔ x.state = .scheduled ∨ x.state = .baselining ∨ x.state = .opened := by
  simp [Window.notYetClosed, or_assoc]

/-- R64: a window that has opened lists the circuit. -/
theorem took_iff {x : Window} {i : Fin 256} :
    x.took i = true ↔ x.state ≠ .scheduled ∧ x.state ≠ .baselining ∧ i ∈ x.members := by
  simp [Window.took, Window.notYetOpen, and_assoc]

/-- R64: a window that has closed lists the circuit. -/
theorem closed_took_iff {x : Window} {i : Fin 256} : (!x.notYetClosed && x.took i) = true ↔
    (x.state = .verifying ∨ x.state = .overdue ∨ x.state = .done) ∧ i ∈ x.members := by
  cases h : x.state <;> simp [Window.notYetClosed, Window.took, Window.notYetOpen, h]

section

variable {before after : Table (Option Window) 16} {i : Fin 256} {w : Fin 16}

/-- R64: the windows that captured the circuit at an OPEN. -/
theorem mem_added : w ∈ (holdChangeOf before after i).added ↔
    ∃ x y, before.get w = some x ∧ after.get w = some y ∧ (x.state = .scheduled ∨ x.state = .baselining) ∧
      y.state ≠ .scheduled ∧ y.state ≠ .baselining ∧ i ∈ y.members := by
  simp only [holdChangeOf, List.mem_filter, List.mem_finRange, true_and, Bool.and_eq_true, Option.any_eq_true,
    notYetOpen_iff, took_iff]
  constructor
  · rintro ⟨⟨x, hx, early⟩, y, hy, took⟩
    exact ⟨x, y, hx, hy, early, took⟩
  · rintro ⟨x, y, hx, hy, early, took⟩
    exact ⟨⟨x, hx, early⟩, y, hy, took⟩

/-- R64: the windows that went to VERIFYING with the circuit among their members. -/
theorem mem_closed : w ∈ (holdChangeOf before after i).closed ↔
    ∃ x y, before.get w = some x ∧ after.get w = some y ∧
      (x.state = .scheduled ∨ x.state = .baselining ∨ x.state = .opened) ∧
      (y.state = .verifying ∨ y.state = .overdue ∨ y.state = .done) ∧ i ∈ y.members := by
  simp only [holdChangeOf, List.mem_filter, List.mem_finRange, true_and, Bool.and_eq_true (Option.any _ _),
    Option.any_eq_true, notYetClosed_iff, closed_took_iff]
  constructor
  · rintro ⟨⟨x, hx, opened⟩, y, hy, took⟩
    exact ⟨x, y, hx, hy, opened, took⟩
  · rintro ⟨x, y, hx, hy, opened, took⟩
    exact ⟨⟨x, hx, opened⟩, y, hy, took⟩

/-- R64: the windows in OPEN that list the circuit. -/
theorem mem_held : w ∈ (holdChangeOf before after i).held ↔
    ∃ y, after.get w = some y ∧ y.state = .opened ∧ i ∈ y.members := by
  simp [holdChangeOf, Option.any_eq_true]

end

/-- R64: a hold change is delivered where the evaluation touched the circuit. -/
theorem deliver_eq (before after : Table (Option Window) 16) (d : Device) (i : Fin 256) : deliver before after d i =
    if (holdChangeOf before after i).added = [] ∧ (holdChangeOf before after i).closed = [] then d
    else d.holdChange i (holdChangeOf before after i) :=
  if_congr (by simp) rfl rfl

/-- R58, R64: the windows walked in slot order, and then one hold change to each circuit touched, in index order. -/
theorem evaluate_eq (d : Device) : d.evaluate = (List.finRange 256).foldl (fun b i =>
    if (holdChangeOf d.windows d.walk.windows i).added = [] ∧ (holdChangeOf d.windows d.walk.windows i).closed = []
      then b else b.holdChange i (holdChangeOf d.windows d.walk.windows i)) d.walk := by
  simp only [← deliver_eq]
  rfl

/-- Settles O25: the record the walk leaves by `Window.walked`, what it raises by `Advances`, what it leaves of the
records by the commitments at an OPEN, and the hold changes by `holdChangeOf`. -/
theorem windowIsWalkedForward : Obligations.WindowIsWalkedForward := by
  refine ⟨?walk, fun d e he => ?evaluation⟩
  case evaluation =>
    rw [he, ← Device.walk]
    exact ⟨holdChangeOf d.windows d.walk.windows, fun i w => ⟨mem_added, mem_closed, mem_held⟩, evaluate_eq d⟩
  case walk =>
    rintro d _ w x now early opens closes z _ h hnow limit hearly hopens hcloses rfl rfl hz
    obtain rfl : now = d.wallNow := hnow
    have opens_iff : opens ↔ x.openAt.number ≤ d.wallNow := hopens
    have closes_iff : closes ↔ x.closing = true ∨ x.closeAt.number ≤ d.wallNow := hcloses
    have walk := Advances.walk h
    have z_iff : ∀ y, z y ↔ x.walked d = y := fun y => by rw [hz, walk.walked.get, Option.some_inj]
    have idle : ∀ s : x.state = .scheduled ∨ x.state = .baselining, ¬opens → ¬x.entersBaselining d → z x :=
      fun s yet waits => (z_iff x).mpr <|
        (walked_of_early s (mt opens_iff.mpr yet)).trans (afterBaselining_of_not waits)
    have later : ∀ {y}, ¬(x.state = .scheduled ∨ x.state = .baselining) → x.afterClose d = y → z y :=
      fun s closed => (z_iff _).mpr ((walked_of_opened s).trans closed)
    refine ⟨fun v ne => ?_, ?baselining, fun s yet lead => ?_, fun s yet => ?_, ?opening, fun s yet => ?_, fun s come => ?_,
      fun t s since left => ?_, fun s done => ?_, fun s left => ?_, fun s => ?_, fun y hy => ?_,
      fun i c b since s come hs hc hb => ?_, fun i c _ hc bare => ?_, fun stays old => ?_⟩
    · rw [walk.walked.windows, Table.get_set_ne _ _ ne]
    case baselining =>
      intro s yet lead come y ask hy hask
      have enters : x.entersBaselining d := ⟨s, lead, come⟩
      have record : x.afterBaselining d = y := (if_pos enters).trans hy.symm
      have early : ¬x.openAt.number ≤ d.wallNow := mt opens_iff.mpr yet
      refine ⟨(z_iff y).mpr ((walked_of_early (.inl s) early).trans record), ?_⟩
      rw [ask_eq_askBaseline hask, walkWindow_baselining h enters early, record]
      rfl
    · refine idle (.inl s) yet ?_
      rintro ⟨-, positive, come⟩
      have : d.wallNow + x.lead < x.openAt.number := lead.resolve_left (by omega)
      omega
    · exact idle (.inr s) yet (not_entersBaselining (by simp [s]))
    case opening =>
      intro s come y hy
      obtain rfl : y = x.openedNow d := hy
      have walked := walked_of_opens (hearly.mp s) (opens_iff.mp come)
      refine ⟨fun stays => (z_iff _).mpr (walked.trans ?_), fun close => (z_iff _).mpr (walked.trans ?_)⟩
      · exact afterClose_of_open rfl (mt closes_iff.mpr stays)
      · exact afterClose_of_closing rfl (closes_iff.mp close) limit
    · exact later (by simp [s]) (afterClose_of_open s (mt closes_iff.mpr yet))
    · exact later (by simp [s]) (afterClose_of_closing s (closes_iff.mp come) limit)
    · exact later (by simp [s]) (afterClose_of_verifying s since left)
    · exact later (by rcases s with s | s <;> simp [s]) (afterClose_of_resolved s done)
    · exact later (by simp [s]) (afterClose_of_overdue s left)
    · exact later (by simp [s]) (afterClose_of_idle (.inr (.inr s)))
    · rw [z_iff] at hy
      subst hy
      exact ⟨walk.stays, walk.moves⟩
    · exact walkWindow_commits_candidate h s (opens_iff.mp come) hs hc hb
    · exact walkWindow_keeps_noCandidate h hc bare
    · exact walkWindow_keeps_circuits h (fun s => mt opens_iff.mpr (stays s)) old

end Sys2Proof.Machine

/-! SUPPORT. The service states: what the permit follows from, what a verdict makes of the state, and what a change of
the state tells the owner. -/

namespace Sys2Proof.Machine

/-! ### The permit and the verdicts (R68, R78 to R80) -/

/-- R68: the permit of a record, by its service state. -/
theorem permit_iff (c : Circuit) : c.permit = true ↔ (c.service = .inService ∧ c.permitRequest = true) ∨
    ((c.service = .held ∨ c.service = .due) ∧ c.retained = true) := by
  cases s : c.service <;> simp [Circuit.permit, s]

/-- R11: nobody has asked for the permit of a new record yet. -/
theorem newCircuit_permit (cid : Nat) (owner : Owner) (x : Desc) : (newCircuit cid owner x).permit = false := rfl

/-- Settles O21: the two cases are `permit_iff`. -/
theorem permitIsDerived : Obligations.PermitIsDerived := ⟨permit_iff, newCircuit_permit⟩

/-- R78: the records that a PASS leaves in, or takes to, AWAIT-CONFIRM. -/
def Circuit.awaitsConfirm (c : Circuit) : Prop :=
  c.service = .awaitConfirm ∨ (c.service = .due ∧ c.desc.safe = .withdrawConfirm)

theorem passState_awaits {c : Circuit} (h : c.awaitsConfirm) : passState c.service c.desc.safe = .awaitConfirm := by
  obtain stands | ⟨due, confirms⟩ := h
  · rw [stands]; rfl
  · rw [due, confirms]; rfl

/-- R78: any other record that is not HELD goes to IN-SERVICE. -/
theorem passState_inService {c : Circuit} (unheld : c.service ≠ .held) (h : ¬c.awaitsConfirm) :
    passState c.service c.desc.safe = .inService := by
  obtain ⟨standing, falling⟩ := not_or.mp h
  cases s : c.service with
  | unproven => rfl
  | inService => rfl
  | faulted reason => rfl
  | held => exact absurd s unheld
  | awaitConfirm => exact absurd s standing
  | due => exact if_neg fun confirms => falling ⟨s, confirms⟩

/-- R79: the reason that each class of a FAIL gives. -/
theorem failReason_eq {cls : RunClass} {reason : FaultReason} (h : cls = .breakage ∧ reason = .breakage ∨
    cls = .misroute ∧ reason = .misroute ∨ cls = .incomplete ∧ reason = .incomplete) : failReason cls = reason := by
  rcases h with ⟨rfl, rfl⟩ | ⟨rfl, rfl⟩ | ⟨rfl, rfl⟩ <;> rfl

/-- Settles O22: a PASS by the two cases of `passState`, a FAIL by `failReason_eq`. -/
theorem verdictMovesTheServiceState : Obligations.VerdictMovesTheServiceState := by
  refine fun c cls unheld => ⟨fun state awaits passes => ?pass, fun reason named => ?fail, rfl⟩
  case pass =>
    have moved : passState c.service c.desc.safe = state := by
      by_cases h : c.awaitsConfirm
      · rw [passState_awaits h, awaits h]
      · rw [passState_inService unheld h, passes h]
    rw [Circuit.take, moved]
  case fail => rw [Circuit.take, failReason_eq named]

/-! ### What a change of the record tells the owner (R69) -/

/-- R69: a record whose service state is another than before has CIRCUIT attention raised. -/
theorem attendChange_moved {d : Device} {i : Fin 256} {b c : Circuit} (h : d.circuit i = some c)
    (moved : b.service ≠ c.service) : d.attendChange i (some b) = d.attendCircuit c.owner i := by
  rw [attendChange_eq h]
  exact if_neg fun same => moved (congrArg Prod.fst (Option.some.inj same))

/-- R69: a record that keeps its service state has it raised where the permit changes. -/
theorem attendChange_permit {d : Device} {i : Fin 256} {b c : Circuit} (h : d.circuit i = some c)
    (stays : b.service = c.service) :
    d.attendChange i (some b) = if c.permit = b.permit then d else d.attendCircuit c.owner i := by
  rw [attendChange_eq h]
  exact if_congr (by simp [Circuit.face, stays, eq_comm]) rfl rfl

/-- R69: attention for a change touches the ports alone. -/
theorem attendChange_ports (d : Device) (i : Fin 256) (b : Option Circuit) :
    ∃ ports, d.attendChange i b = { d with ports := ports } := by
  unfold Device.attendChange
  split
  · exact ⟨_, rfl⟩
  · split
    · exact ⟨_, rfl⟩
    · exact ⟨_, rfl⟩

/-! ### REQUEST-PERMIT (R83) -/

/-- R83: the record that REQUEST-PERMIT leaves. -/
theorem askPermit_eq (on : Bool) (c : Circuit) : c.askPermit on = { c with
    permitRequest := on
    retained := if on = false ∧ (c.service = .held ∨ c.service = .due) then false else c.retained } := by
  simp [Circuit.askPermit]

/-- R182: ON is coded 00h and OFF 01h. -/
theorem onOffOf_of_lt {v : Nat} (h : v < 2) : onOffOf v = some (decide (v = 0)) := by
  rw [onOffOf, flagOf_of_lt h, Option.map_some, ← decide_not]
  exact congrArg some (decide_eq_decide.mpr (by omega))

theorem onOffOf_of_ge {v : Nat} (h : 2 ≤ v) : onOffOf v = none := by
  rw [onOffOf, flagOf, if_neg (by omega), if_neg (by omega), Option.map_none]

theorem exec_requestPermit {s : State} {p : Fin 4} {body : List Byte} (h : s.dev.takesAny p = true)
    (length : body.length = 5) : exec (.requestPermit p body) s = .next (s.put (s.dev.permitRequested p body)) :=
  on_request_any h (by simp [length]) 0x13 (Device.permitRequested p body)

theorem permitRequested_badCode {body : List Byte} (h : 2 ≤ byteAt body 4) (d : Device) (p : Fin 4) :
    d.permitRequested p body = d.respond p 0x13 0x11 [] := by
  rw [Device.permitRequested, onOffOf_of_ge h, rcBadArgument]

/-- R69, R83: the permit request written, with CIRCUIT attention where the permit changes. -/
theorem permitRequested_written {d : Device} {p : Fin 4} {body : List Byte} {c : Circuit}
    (may : d.mayName p body .owner c) (flag : byteAt body 4 < 2) {b : Circuit} {e : Device}
    (hb : c.askPermit (decide (byteAt body 4 = 0)) = b)
    (he : e = { d with circuits := d.circuits.set (namedIndex body) (some b) }) :
    d.permitRequested p body =
      (if b.permit = c.permit then e else e.attendCircuit c.owner (namedIndex body)).respond p 0x13 0x00 [] := by
  obtain ⟨hc, -⟩ := named_circuit may.1
  have written : e.circuit (namedIndex body) = some b := by rw [he, circuit_set_self]
  have stays : c.service = b.service := by rw [← hb, Circuit.askPermit]
  have owner : b.owner = c.owner := by rw [← hb, Circuit.askPermit]
  simp only [Device.permitRequested, onOffOf_of_lt flag]
  rw [onNamed_taken may, onCircuit_eq hc, hb, ← he, attendChange_permit written stays, owner, rcOk]

/-! ### CONFIRM (R82) -/

theorem exec_confirm {s : State} {p : Fin 4} {body : List Byte} {c : Circuit} (h : s.dev.takesAny p = true)
    (length : body.length = 4) (may : s.dev.mayName p body .owner c) : exec (.confirm p body) s = .next (s.put
      (if c.service = .awaitConfirm then (s.dev.respond p 0x14 0x00 []).confirmed (namedIndex body) c
        else s.dev.respond p 0x14 0x17 [])) := by
  refine (on_request_any h (by simp [length]) 0x14 (Device.confirm p body)).trans ?_
  rw [Device.confirm, onNamed_taken may, rcOk, rcWrongState]

/-- R20, R69, R82: a record confirmed is IN-SERVICE and its owner told, and then a staged edit is judged. -/
theorem confirmed_eq {d : Device} {i : Fin 256} {c : Circuit} (hc : d.circuit i = some c)
    (waits : c.service = .awaitConfirm) {e : Device} (he : e = Device.attendCircuit { d with
      circuits := d.circuits.set i (some { c with service := .inService }) } c.owner i) :
    d.confirmed i c = if c.staged = none then e else Device.arbitrate d false (e.judgeStaged i) := by
  have moved := attendChange_moved (b := c) (circuit_set_self d i (some { c with service := .inService }))
    (by rw [waits]; exact nofun)
  unfold Device.confirmed
  rw [onCircuit_eq hc, moved, ← he]
  exact if_congr Option.isNone_iff_eq_none rfl rfl

/-- Settles O18: REQUEST-PERMIT by its code, CONFIRM by the service state and then by the staged edit. -/
theorem permitRequestAndConfirm : Obligations.PermitRequestAndConfirm := by
  rintro s p body _ c takes rfl may
  obtain ⟨hc, -⟩ := named_circuit may.1
  refine ⟨?request, fun length unknown => ?_, fun length other => ?_, ?confirm⟩
  case request =>
    rintro length flag _ b d rfl rfl rfl
    rw [exec_requestPermit takes length, permitRequested_written may flag (askPermit_eq _ c) rfl]
  · rw [exec_requestPermit takes length, permitRequested_badCode unknown]
  · rw [exec_confirm takes length may, if_neg other]
  case confirm =>
    intro length waits d hd
    rw [exec_confirm takes length may, if_pos waits, confirmed_eq (d := s.dev.respond p 0x14 0x00 []) hc waits hd]
    exact ⟨fun bare => by rw [if_pos bare], fun staged => by rw [if_neg staged]⟩

end Sys2Proof.Machine

/-! SUPPORT. Hold changes: a record that falls due, a hold that begins on a record with a run, and the four cases. -/

namespace Sys2Proof.Machine

/-! ### What a message and a request for an entry leave of the records (R88, R156) -/

/-- R156: what a message handed to a link does is the same whatever the records are. -/
theorem sendOpt_withCircuits (d : Device) (circuits : Table (Option Circuit) 256) (g : Option (Fin 4)) (m : Message) :
    Device.sendOpt { d with circuits := circuits } g m = { d.sendOpt g m with circuits := circuits } := by
  cases g with
  | none => rfl
  | some g =>
    simp only [Device.sendOpt, Device.send]
    split
    · split
      · rfl
      · rfl
    · rfl

/-- R88: a request for an entry touches no record. -/
theorem enqueue_circuits (d : Device) (i : Fin 256) (k : Kind) (cls : QClass) :
    (d.enqueue i k cls).circuits = d.circuits := by
  unfold Device.enqueue Device.newEntry Device.moveCounter
  split
  · rfl
  · split
    · rfl
    · split
      · rfl
      · rfl

/-! ### A hold ends (R72 to R74) -/

/-- R72 to R74: the part once the record at an index, of which `c` says what it is besides its state, has fallen due. -/
def Device.fallenDue (d : Device) (i : Fin 256) (c : Circuit) : Device :=
  if c.desc.role = .head then
    Device.enqueue { d with circuits := d.circuits.set i (some { c with service := .due }) } i .verify .high
  else
    { Device.sendOpt d c.desc.ingress.degree? (.request c.cid .verify) with
      circuits := d.circuits.set i (some { c with
        service := .due, attempts := 1, requestDeadline := some (d.now + 1000 * d.timings.requestInterval) }) }

/-- R72: a hold that ends is the record fallen due. -/
theorem holdEnds_eq {d : Device} {i : Fin 256} {c : Circuit} (hc : d.circuit i = some c) :
    d.holdEnds i = d.fallenDue i c := by
  unfold Device.holdEnds Device.intoDue Device.fallenDue
  rw [onCircuit_eq hc, circuit_set_self]
  dsimp only
  split
  · rfl
  · have due := circuit_set_self (d.sendOpt c.desc.ingress.degree? (.request c.cid .verify)) i
      (some { c with service := .due })
    obtain ⟨links, ports, sent⟩ := sendOpt_eq d c.desc.ingress.degree? (.request c.cid .verify)
    rw [Circuit.upstream, sendOpt_withCircuits]
    rw [sent] at due ⊢
    rw [onCircuit_eq (by exact due), Table.set_set]
    rw [Circuit.startTimer, Device.requestInterval, seconds, Nat.mul_comm]
    rfl

/-- R72, R73: a record fallen due is DUE, and its owner is who it was. -/
theorem fallenDue_circuit (d : Device) (i : Fin 256) (c : Circuit) :
    ∃ b, (d.fallenDue i c).circuit i = some b ∧ b.service = .due ∧ b.owner = c.owner := by
  unfold Device.fallenDue
  split
  · refine ⟨{ c with service := .due }, ?_, rfl, rfl⟩
    rw [Device.circuit, enqueue_circuits]
    exact circuit_set_self d i _
  · exact ⟨_, Table.get_set_self _ _ _, rfl, rfl⟩

/-- R69, R72: a record that falls due from another state has CIRCUIT attention raised. -/
theorem attendChange_fallenDue (d : Device) (i : Fin 256) {b c : Circuit} (moved : b.service ≠ .due) :
    (d.fallenDue i c).attendChange i (some b) = (d.fallenDue i c).attendCircuit c.owner i := by
  obtain ⟨a, ha, due, owner⟩ := fallenDue_circuit d i c
  rw [attendChange_moved ha (by rwa [due]), owner]

/-! ### A hold begins (R71) -/

/-- R71: a record with the retained-permit flag as a hold that begins sets or clears it. -/
def Circuit.flagged (c : Circuit) : Circuit :=
  { c with retained := c.service == .inService && c.desc.safe == .retain && c.permit }

/-- R71: the retained-permit flag of a record that enters HELD. -/
theorem enterHold_eq (c : Circuit) : c.enterHold = { c with
    service := .held, attempts := 0, requestDeadline := none
    retained := decide (c.service = .inService ∧ c.desc.safe = .retain ∧ c.permit = true) } := by
  simp [Circuit.enterHold, Bool.beq_eq_decide_eq, Bool.and_assoc]

/-- R71: the detach of an abandoned run starts no timer that the hold would not stop. -/
theorem detached_stopTimer (d : Device) (c : Circuit) :
    (c.detached d).stopTimer = { c with run := none }.stopTimer := by
  unfold Circuit.detached
  split
  · rfl
  · rfl

/-- R71: a hold begins with the flag, goes on with the run and ends with the state. -/
theorem holdBegins_flagged {d : Device} {i : Fin 256} {c : Circuit} (hc : d.circuit i = some c) :
    d.holdBegins i = Device.onCircuit
      (Device.abandonRun { d with circuits := d.circuits.set i (some c.flagged) } i .held) i
      fun b => { b.stopTimer with service := .held } := by
  rw [Device.holdBegins, onCircuit_eq hc]
  rfl

/-- R71, R109: a hold that begins on a record with a run abandons it with the reason HELD. -/
theorem holdBegins_abandons {d : Device} {i : Fin 256} {c : Circuit} {slot : Fin 32} {r : Run}
    (hc : d.circuit i = some c) (found : d.runOf i = some slot) (hr : d.runs.get slot = some r) :
    ∃ ports, d.holdBegins i = { d with
      runs := d.runs.set slot none
      grants := d.grants.filter fun g => g.slot != slot
      injectors := (d.freeInjectorOf slot).injectors
      taps := if r.listen = .opened then (d.releaseSlots slot).taps else d.taps
      circuits := d.circuits.set i (some { c.enterHold with run := none })
      links := (d.tellAbandoned c.cid r .held).links
      ports := ports } := by
  obtain ⟨ports, abandoned⟩ := abandonRun_eq (d := { d with circuits := d.circuits.set i (some c.flagged) })
    (circuit_set_self d i (some c.flagged)) found hr .held
  refine ⟨ports, ?_⟩
  rw [holdBegins_flagged hc, abandoned, onCircuit_eq (by exact circuit_set_self _ _ _), detached_stopTimer,
    tellAbandoned_links (d := { d with circuits := d.circuits.set i (some c.flagged) }) (e := d) rfl]
  simp only [Table.set_set]
  rfl

/-! ### The four cases of a hold change (R70) -/

/-- R70: a circuit that was held and no longer is has its hold ended. -/
theorem holdChange_ends (d : Device) (i : Fin 256) {h : HoldChange} (before : h.before ≠ []) (held : h.held = []) :
    d.holdChange i h = (d.holdEnds i).attendChange i (d.circuit i) := by
  have was : h.before.isEmpty = false := by simpa using before
  simp only [Device.holdChange, was, held, List.isEmpty_nil]

/-- R70: a circuit that was held and still is is left alone. -/
theorem holdChange_continues (d : Device) (i : Fin 256) {h : HoldChange} (before : h.before ≠ []) (held : h.held ≠ []) :
    d.holdChange i h = d := by
  have was : h.before.isEmpty = false := by simpa using before
  have still : h.held.isEmpty = false := by simpa using held
  simp only [Device.holdChange, was, still]

/-- R70: a circuit that a window took and gave up in one evaluation has its hold begun and ended. -/
theorem holdChange_both (d : Device) (i : Fin 256) {h : HoldChange} (before : h.before = []) (held : h.held = [])
    (closed : h.closed ≠ []) :
    d.holdChange i h = ((d.holdBegins i).holdEnds i).attendChange i (d.circuit i) := by
  have left : h.closed.isEmpty = false := by simpa using closed
  simp only [Device.holdChange, before, held, left, List.isEmpty_nil]

/-- R71, R72: a record without a run whose hold begins and ends is the record that entered HELD, fallen due. -/
theorem holdBegins_holdEnds {d : Device} {i : Fin 256} {c : Circuit} (hc : d.circuit i = some c)
    (unrun : d.runOf i = none) : (d.holdBegins i).holdEnds i = d.fallenDue i c.enterHold := by
  rw [holdBegins_eq hc unrun, holdEnds_eq (circuit_set_self d i (some c.enterHold))]
  unfold Device.fallenDue
  rw [sendOpt_withCircuits, Table.set_set, Table.set_set]
  rfl

/-- Settles O26: each case of `holdChange`, with a hold that ends by `holdEnds_eq`, one that begins by `holdBegins_eq`
and `holdBegins_abandons`, and one that does both by `holdBegins_holdEnds`. -/
theorem holdChangeMovesTheRecord : Obligations.HoldChangeMovesTheRecord := by
  rintro d i c _ h due hc rfl hdue
  rw [← enterHold_eq]
  have due_eq : ∀ b, b.desc = c.desc → b.cid = c.cid → due b = d.fallenDue i b := fun b desc cid => by
    rw [hdue, Device.fallenDue, desc, cid]
  refine ⟨holdChange_continues d i, fun before held was => ?ends,
    fun before unrun => ⟨fun held moved => ?begins, fun held closed moved => ?both⟩,
    fun before held slot r found hr => ?abandons⟩
  case ends =>
    rw [holdChange_ends d i before held, holdEnds_eq hc, hc, attendChange_fallenDue d i (by rw [was]; exact nofun),
      due_eq c rfl rfl]
  case begins =>
    rw [holdChange_begins d i before held, holdBegins_eq hc unrun, hc,
      attendChange_moved (circuit_set_self d i (some c.enterHold)) moved]
    rfl
  case both =>
    rw [holdChange_both d i before held closed, holdBegins_holdEnds hc unrun, hc, attendChange_fallenDue d i moved,
      due_eq c.enterHold rfl rfl]
    rfl
  case abandons =>
    obtain ⟨_, begun⟩ := holdBegins_abandons hc found hr
    obtain ⟨ports, attended⟩ := attendChange_ports (d.holdBegins i) i (d.circuit i)
    rw [holdChange_begins d i before held, attended, begun]
    refine ⟨_, rfl, rfl, rfl, freeInjectorOf_none d slot, fun g hg => ?_, ?_, rfl, rfl⟩
    · simpa using (List.mem_filter.mp hg).2
    · split
      · rfl
      · rfl

end Sys2Proof.Machine

/-! SUPPORT. An ANNOUNCE accepted: the tests it passes, the run it opens and what it passes on. -/

namespace Sys2Proof.Machine

/-! ### The tests of an ANNOUNCE (R110) -/

theorem inRange_iff {lo v hi : Nat} : inRange lo v hi = true ↔ lo ≤ v ∧ v ≤ hi := by simp [inRange]

/-- R110: what agrees between a record and an ANNOUNCE that it fits. -/
theorem fits_iff {c : Circuit} {g : Fin 4} {hop n dwell : Nat} : c.fits g hop n dwell = true ↔
    c.desc.role ≠ .head ∧ c.desc.k = hop ∧ c.desc.n = n ∧ c.desc.ingress = .degree g ∧ 1 ≤ dwell ∧ dwell ≤ 20 := by
  simp [Circuit.fits, inRange_iff, and_assoc]

/-- R110: the BUSY test passes where a run slot and every listen slot needed are free. -/
theorem hasRoom_of_free {d : Device} {i : Fin 256} {x : Desc} {slot : Fin 32}
    (free : (d.withoutRun i).runs.firstFree = some slot) (listens : (d.withoutRun i).canListen x = true) :
    d.hasRoom i x = true := by
  rw [Device.hasRoom, free, listens]
  rfl

/-- R110: the LINK-DOWN test passes where a transit's egress link is UP. -/
theorem spanUp_of_up {d : Device} {x : Desc}
    (up : x.role = .transit → ∃ out, x.egress = .degree out ∧ (d.links.get out).state = .up) : d.spanUp x = true := by
  unfold Device.spanUp
  by_cases transit : x.role = .transit
  · obtain ⟨out, egress, state⟩ := up transit
    simp [egress, Place.degree?, state]
  · simp [transit]

/-- R110: an ANNOUNCE that passes every test is refused for none. -/
theorem announceRefusal_none {d : Device} {g : Fin 4} {i : Fin 256} {c : Circuit} {hop n dwell : Nat}
    (fits : c.fits g hop n dwell = true) (unheld : c.service ≠ .held) (room : d.hasRoom i c.desc = true)
    (up : d.spanUp c.desc = true) : d.announceRefusal g i c hop n dwell = none := by
  simp [Device.announceRefusal, fits, unheld, room, up]

/-- R94, R110: an ANNOUNCE that is refused for none is accepted, and the Arbiter judges where it superseded a run. -/
theorem announced_accepted {d : Device} {g : Fin 4} {cid : Nat} {hop n dwell : Nat} {i : Fin 256} {c : Circuit}
    (found : d.findCid cid = some i) (hc : d.circuit i = some c) (passes : d.announceRefusal g i c hop n dwell = none)
    (run : RunId) (kind : Kind) : d.announced g cid run kind hop n dwell =
      if (d.runOf i).isSome then Device.arbitrate d false (d.accept i c run kind dwell)
      else d.accept i c run kind dwell := by
  simp only [Device.announced, found, hc, passes]

/-! ### The record of the announced run (R13, R76) -/

/-- R13, R76: the record of a transit or tail with a run attached and the request timer stopped. -/
def Circuit.attached (c : Circuit) (run : AttachedRun) : Circuit :=
  { c with run := some run, attempts := 0, requestDeadline := none }

/-- R76: a run attached stops the request timer that a detach may have started. -/
theorem detached_attached (d : Device) (c : Circuit) (run : AttachedRun) :
    (c.detached d).attached run = c.attached run := by
  unfold Circuit.detached
  split
  · rfl
  · rfl

theorem detached_desc (d : Device) (c : Circuit) : (c.detached d).desc = c.desc := by
  unfold Circuit.detached
  split
  · rfl
  · rfl

/-- R76: at a transit or tail the run attached stops the request timer. -/
theorem attach_eq {d : Device} {i : Fin 256} {c : Circuit} (hc : d.circuit i = some c) (role : c.desc.role ≠ .head)
    (run : RunId) (kind : Kind) :
    d.attach i run kind = { d with circuits := d.circuits.set i (some (c.attached ⟨run, kind⟩)) } := by
  rw [Device.attach, onCircuit_eq hc]
  dsimp only
  rw [if_neg role]
  rfl

/-- R104, R111: freeing the circuit's older run touches slots, grants, injectors, taps and the circuit's own record; the
run attached next leaves the record as it would have without an older run. -/
theorem withoutRun_eq {d : Device} {i : Fin 256} {c : Circuit} (hc : d.circuit i = some c) :
    ∃ runs grants injectors taps b, d.withoutRun i = { d with
      runs := runs, grants := grants, injectors := injectors, taps := taps
      circuits := d.circuits.set i (some b) } ∧ b.desc = c.desc ∧ ∀ run, b.attached run = c.attached run := by
  unfold Device.withoutRun
  split
  · have kept : d.circuits.set i (some c) = d.circuits := by rw [← hc]; exact Table.set_get _ _
    exact ⟨d.runs, d.grants, d.injectors, d.taps, c, by rw [kept], rfl, fun _ => rfl⟩
  next slot found =>
    obtain ⟨r, hr, rfl⟩ := runOf_run found
    exact ⟨_, _, _, _, c.detached d, freeRun_circuit hr hc, detached_desc d c, detached_attached d c⟩

/-! ### The run opened (R111 to R113) -/

/-- R102, R111: the part with the announced run opened in a slot, its listen slots claimed and the run attached. -/
def Device.openAnnounced (d : Device) (slot : Fin 32) (i : Fin 256) (c : Circuit) (run : RunId) (kind : Kind)
    (dwell : Nat) : Device :=
  (Device.claim { d with runs := d.runs.set slot (some (announcedRun d i c run kind dwell)) } slot c.cid c.desc).attach
    i run kind

/-- R111: an ANNOUNCE accepted is the run opened in the lowest free slot and the message passed on. -/
theorem accept_eq {d : Device} {i : Fin 256} {slot : Fin 32} (free : (d.withoutRun i).runs.firstFree = some slot)
    (c : Circuit) (run : RunId) (kind : Kind) (dwell : Nat) : d.accept i c run kind dwell =
      ((d.withoutRun i).openAnnounced slot i c run kind dwell).passAnnounce c run kind dwell := by
  simp only [Device.accept, free, Device.openAnnounced]

/-- R111, R112: opening the run touches the run's slot, its listen slots and the circuit's record alone. -/
theorem openAnnounced_eq {d : Device} {i : Fin 256} {b : Circuit} (hb : d.circuit i = some b)
    (role : b.desc.role ≠ .head) (slot : Fin 32) (c : Circuit) (run : RunId) (kind : Kind) (dwell : Nat) :
    d.openAnnounced slot i c run kind dwell = { d with
      runs := d.runs.set slot (some (announcedRun d i c run kind dwell))
      taps := (d.claim slot c.cid c.desc).taps
      circuits := d.circuits.set i (some (b.attached ⟨run, kind⟩)) } := by
  rw [Device.openAnnounced, attach_eq (by exact hb) role]
  rfl

/-- R112, R113: what an accepted ANNOUNCE passes on touches links and ports alone. -/
theorem passAnnounce_eq (d : Device) (c : Circuit) (run : RunId) (kind : Kind) (dwell : Nat) :
    ∃ ports, d.passAnnounce c run kind dwell =
      { d with links := (d.passAnnounce c run kind dwell).links, ports := ports } := by
  unfold Device.passAnnounce
  split
  · obtain ⟨links, ports, sent⟩ := sendOpt_eq d c.desc.egress.degree?
      (.announce c.cid run kind (c.desc.k + 1) c.desc.n dwell)
    exact ⟨ports, by rw [sent]⟩
  · obtain ⟨links, ports, sent⟩ := sendOpt_eq d c.upstream (.armed c.cid run)
    exact ⟨ports, by rw [sent]⟩

/-- R156: what it leaves in the links depends on the links alone. -/
theorem passAnnounce_links {d e : Device} (h : d.links = e.links) (c : Circuit) (run : RunId) (kind : Kind)
    (dwell : Nat) : (d.passAnnounce c run kind dwell).links = (e.passAnnounce c run kind dwell).links := by
  unfold Device.passAnnounce
  split
  · exact sendOpt_links h _ _
  · exact sendOpt_links h _ _

/-- R111 to R113: what an accepted ANNOUNCE leaves, where `f` is the part with the circuit's older run freed. -/
theorem accept_leaves {d f : Device} {i : Fin 256} {c : Circuit} {slot : Fin 32} (hc : d.circuit i = some c)
    (role : c.desc.role ≠ .head) (hf : f = d.withoutRun i) (free : f.runs.firstFree = some slot) (run : RunId)
    (kind : Kind) (dwell : Nat) :
    ∃ grants injectors ports, d.accept i c run kind dwell = { d with
      runs := f.runs.set slot (some (announcedRun d i c run kind dwell))
      grants := grants, injectors := injectors, ports := ports
      taps := (f.claim slot c.cid c.desc).taps
      circuits := d.circuits.set i (some (c.attached ⟨run, kind⟩))
      links := (d.passAnnounce c run kind dwell).links } := by
  obtain ⟨runs, grants, injectors, taps, b, freed, desc, attached⟩ := withoutRun_eq hc
  have record : f.circuit i = some b := by rw [hf, freed]; exact Table.get_set_self _ _ _
  have opened : f.openAnnounced slot i c run kind dwell = { d with
      runs := f.runs.set slot (some (announcedRun d i c run kind dwell))
      grants := grants, injectors := injectors
      taps := (f.claim slot c.cid c.desc).taps
      circuits := d.circuits.set i (some (c.attached ⟨run, kind⟩)) } := by
    rw [openAnnounced_eq record (by rwa [desc]), attached, hf, freed]
    simp only [Table.set_set]
    rfl
  obtain ⟨ports, passed⟩ := passAnnounce_eq (f.openAnnounced slot i c run kind dwell) c run kind dwell
  have links := passAnnounce_links (d := f.openAnnounced slot i c run kind dwell) (e := d) (by rw [opened]) c run kind
    dwell
  refine ⟨grants, injectors, ports, ?_⟩
  rw [accept_eq (by rw [← hf]; exact free), ← hf, passed, links, opened]

/-! ### An ANNOUNCE accepted (R110 to R113) -/

theorem exec_announce {s : State} {g : Fin 4} {cid : Nat} {run : RunId} {kind : Kind} {hop n dwell : Nat}
    (takes : s.dev.linkTakes g = true) (wf : (Message.announce cid run kind hop n dwell).wf = true) :
    exec (.announce g cid run kind hop n dwell) s =
      .next (s.put ((s.dev.heard g).announced g cid run kind hop n dwell)) := by
  refine (on_eq_put s _).trans ?_
  rw [receive_taken takes wf]

/-- R148: a valid frame changes the state of no link. -/
theorem heard_state (d : Device) (g out : Fin 4) : ((d.heard g).links.get out).state = (d.links.get out).state := by
  have keeps : ∀ l : Link, (l.heard d.now).state = l.state := fun l => by
    unfold Link.heard
    split
    · rfl
    · rfl
  rw [Device.heard, link_links, Table.modify_eq_set, Table.get_set]
  split
  next same => rw [same, keeps]
  next => rfl

/-- R1: the record found for a circuit id has it. -/
theorem findCid_cid {d : Device} {cid : Nat} {i : Fin 256} {c : Circuit} (found : d.findCid cid = some i)
    (hc : d.circuit i = some c) : c.cid = cid := by
  have has := List.find?_some found
  rw [hc, Option.any_some] at has
  exact eq_of_beq has

/-- R105, R112, R113: how long the announced run waits, a transit for ARMED and a tail for STOP. -/
theorem announcedRun_deadline (d : Device) (i : Fin 256) (c : Circuit) (run : RunId) (kind : Kind) (dwell : Nat) :
    (announcedRun d i c run kind dwell).deadline = d.now +
      if c.desc.role = .transit then 1000 * (d.timings.armBase * (c.desc.n - 1 - c.desc.k))
      else dwell * 100 + 1000 * (2 * d.timings.armBase) := by
  simp only [announcedRun, Device.armedWait, Device.stopWait, seconds, Nat.mul_comm]

/-- Settles O39: the tests by `announceRefusal_none`, what the acceptance leaves by `accept_leaves`, and the run opened
by the fields of `announcedRun`. -/
theorem announceIsAccepted : Obligations.AnnounceIsAccepted := by
  rintro s g cid run kind hop n dwell _ f i c slot takes wf rfl found hc fits unheld hf free listens _ rfl up
  obtain ⟨role, hop_eq, length_eq, ingress, -, -⟩ := fits_iff.mp fits
  have cid_eq : c.cid = cid := findCid_cid found hc
  have upstream : c.upstream = some g := by rw [Circuit.upstream, ingress, Place.degree?]
  have spans : (s.dev.heard g).spanUp c.desc = true := spanUp_of_up fun transit => by
    obtain ⟨out, egress, state⟩ := up (decide_eq_true transit)
    exact ⟨out, egress, (heard_state s.dev g out).trans state⟩
  have passes := announceRefusal_none fits unheld (hasRoom_of_free (by rwa [hf] at free) (by rwa [hf] at listens)) spans
  obtain ⟨grants, injectors, ports, left⟩ := accept_leaves (d := s.dev.heard g) hc role hf free run kind dwell
  rw [exec_announce takes wf, announced_accepted (d := s.dev.heard g) found hc passes, left]
  refine ⟨_, _, rfl, Table.get_set_self _ _ _, rfl, rfl, rfl, rfl, hop_eq, length_eq, upstream, rfl, rfl, rfl, rfl, rfl,
    ?phase, ?deadline, Table.get_set_self _ _ _, ?taps, ?links, fun j other => Table.get_set_ne _ _ other, rfl, rfl⟩
  case phase => simp only [announcedRun, decide_eq_true_eq]
  case deadline =>
    rw [announcedRun_deadline, hop_eq, length_eq]
    simp only [decide_eq_true_eq]
    rfl
  case taps => rw [cid_eq]
  case links =>
    simp only [Device.passAnnounce, upstream, cid_eq, hop_eq, length_eq, decide_eq_true_eq]
    rfl

end Sys2Proof.Machine

/-! SUPPORT. The queue's entries stay apart: what names an entry, what each operation leaves of the queue, and which
writes of the queue there are. -/

namespace Sys2Proof.Machine

/-! ### What names an entry (R86) -/

/-- R86: what of an entry has to be apart from every other. -/
def QueueEntry.key (e : QueueEntry) : Fin 256 × Kind := (e.circuit, e.kind)

theorem isFor_iff {i : Fin 256} {k : Kind} {e : QueueEntry} : e.isFor i k = true ↔ e.key = (i, k) := by
  simp [QueueEntry.isFor, QueueEntry.key]

theorem entriesApart_iff {d : Device} : d.entriesApart ↔ (d.queue.map QueueEntry.key).Nodup := by
  simp [Device.entriesApart, List.Nodup, List.pairwise_map, QueueEntry.key]

theorem queued_eq_none {d : Device} {i : Fin 256} {k : Kind} :
    d.queued i k = none ↔ (i, k) ∉ d.queue.map QueueEntry.key := by
  simp [Device.queued, List.find?_eq_none, isFor_iff]

theorem merge_key (now : Nat) (cls : QClass) (e : QueueEntry) : (e.merge now cls).key = e.key := by
  unfold QueueEntry.merge
  split
  · rfl
  · rfl

theorem promote_key (now age : Nat) (e : QueueEntry) : (e.promote now age).key = e.key := by
  unfold QueueEntry.promote
  split
  · split
    · rfl
    · rfl
    · rfl
    · rfl
  · rfl

/-! ### Operations that keep the entries apart -/

/-- Where `d` has its entries apart, so has `e`. -/
def Device.KeepsEntries (d e : Device) : Prop := d.entriesApart → e.entriesApart

namespace Device.KeepsEntries

variable {d e f x : Device}

theorem rfl' (d : Device) : d.KeepsEntries d := id

theorem trans (h : d.KeepsEntries e) (k : e.KeepsEntries f) : d.KeepsEntries f := k ∘ h

theorem thenIf {c : Prop} [Decidable c] (h : d.KeepsEntries e) (k : e.KeepsEntries x) :
    d.KeepsEntries (if c then x else e) := by
  split
  · exact h.trans k
  · exact h

/-- A fold of operations that keep the entries apart keeps them apart. -/
theorem foldl {α : Type} {f : Device → α → Device} (h : ∀ (d : Device) a, d.KeepsEntries (f d a)) (l : List α)
    (d : Device) : d.KeepsEntries (l.foldl f d) := by
  induction l generalizing d with
  | nil => exact rfl' d
  | cons a l ih => exact (h d a).trans (ih (f d a))

/-- Entries that keep circuit and kind stay apart. -/
theorem of_keys (h : e.queue.map QueueEntry.key = d.queue.map QueueEntry.key) : d.KeepsEntries e := by
  intro apart
  rw [entriesApart_iff, h]
  exact entriesApart_iff.mp apart

theorem of_queue (h : e.queue = d.queue) : d.KeepsEntries e := of_keys (by rw [h])

/-- The entries that are left stay apart. -/
theorem of_sublist (h : e.queue.Sublist d.queue) : d.KeepsEntries e := List.Pairwise.sublist h

/-- R86: an entry joins a queue that holds none of its circuit and kind. -/
theorem of_append {a : QueueEntry} (absent : d.queued a.circuit a.kind = none) (h : e.queue = d.queue ++ [a]) :
    d.KeepsEntries e := by
  intro apart
  rw [entriesApart_iff, h, List.map_append, List.nodup_append]
  refine ⟨entriesApart_iff.mp apart, List.nodup_singleton _, ?_⟩
  rintro key held _ new rfl
  obtain rfl : key = a.key := by simpa using new
  exact queued_eq_none.mp absent held

theorem after (k : e.KeepsEntries f) (h : e.queue = d.queue) : d.KeepsEntries f := (of_queue h).trans k

theorem before (h : d.KeepsEntries e) (k : f.queue = e.queue) : d.KeepsEntries f := h.trans (of_queue k)

end Device.KeepsEntries

/-! ### The writes of the queue (R87, R88, R95, R97, R99, R100) -/

theorem mergeInto_entries (d : Device) (i : Fin 256) (k : Kind) (cls : QClass) :
    d.KeepsEntries (d.mergeInto i k cls) := by
  refine .of_keys ?_
  rw [Device.mergeInto, List.map_map]
  refine List.map_congr_left fun e _ => ?_
  rw [Function.comp_apply]
  split
  · exact merge_key _ _ _
  · rfl

theorem moveCounter_entries (d : Device) : d.KeepsEntries d.moveCounter := by
  unfold Device.moveCounter
  split
  · exact .of_queue rfl
  · exact .of_keys (List.map_map ..)

theorem enqueue_entries (d : Device) (i : Fin 256) (k : Kind) (cls : QClass) : d.KeepsEntries (d.enqueue i k cls) := by
  unfold Device.enqueue
  split
  · exact .rfl' d
  split
  · exact mergeInto_entries d i k cls
  next absent => exact .trans (.of_append (by simpa using absent) rfl) (moveCounter_entries _)

theorem putBack_entries (d : Device) (g : GrantRecord) (t : Option Nat) : d.KeepsEntries (d.putBack g t) := by
  unfold Device.putBack
  split
  · exact .rfl' d
  split
  · exact mergeInto_entries d _ _ _
  next absent => exact .of_append (by simpa using absent) rfl

theorem promote_entries (d : Device) : d.KeepsEntries d.promote := by
  refine .of_keys ?_
  rw [Device.promote, List.map_map]
  exact List.map_congr_left fun e _ => promote_key _ _ e

/-! ### What leaves the queue as it is -/

theorem attendChange_queue (d : Device) (i : Fin 256) (b : Option Circuit) : (d.attendChange i b).queue = d.queue := by
  obtain ⟨ports, e⟩ := attendChange_ports d i b
  rw [e]

theorem raiseCheck_queue (d : Device) (c : CheckCause) : (d.raiseCheck c).queue = d.queue := by
  unfold Device.raiseCheck
  split
  · rfl
  · rfl

@[simp] theorem sendOpt_queue (d : Device) (g : Option (Fin 4)) (m : Message) : (d.sendOpt g m).queue = d.queue := by
  obtain ⟨links, ports, e⟩ := sendOpt_eq d g m
  rw [e]

@[simp] theorem send_queue (d : Device) (g : Fin 4) (m : Message) : (d.send g m).queue = d.queue :=
  sendOpt_queue d (some g) m

theorem onWindows_queue (d : Device) (f : Window → Window) : (d.onWindows f).queue = d.queue := by
  obtain ⟨ports, e⟩ := onWindows_eq d f
  rw [e]

theorem giveUpListen_queue (d : Device) (s : Fin 32) : (d.giveUpListen s).queue = d.queue := by
  unfold Device.giveUpListen
  split
  · split
    · rfl
    · rfl
  · rfl

@[simp] theorem freeRun_queue (d : Device) (s : Fin 32) : (d.freeRun s).queue = d.queue := by
  unfold Device.freeRun
  split
  · rfl
  · exact giveUpListen_queue d s

theorem abandonRun_queue (d : Device) (i : Fin 256) (r : Reason) : (d.abandonRun i r).queue = d.queue := by
  unfold Device.abandonRun
  split
  · rfl
  split
  · rfl
  dsimp only
  rw [freeRun_queue, sendOpt_queue]
  split
  · rfl
  · exact sendOpt_queue d _ _

theorem holdBegins_queue (d : Device) (i : Fin 256) : (d.holdBegins i).queue = d.queue := abandonRun_queue _ i _

theorem closeListen_queue (d : Device) (s : Fin 32) : (d.closeListen s).queue = d.queue := by
  unfold Device.closeListen
  split
  · rfl
  split
  · rfl
  · rfl

theorem applyOutcome_queue (d : Device) (i : Fin 256) (o : RunOutcome) (l : Option HopList) :
    (d.applyOutcome i o l).queue = d.queue := by
  unfold Device.applyOutcome
  split
  · rfl
  split
  · rfl
  dsimp only
  rw [raiseOwner_queue, attendChange_queue]
  split
  · rfl
  · exact onWindows_queue _ _

/-- R70: a hold change that closes no window begins a hold or does nothing, so no entry joins the queue. -/
theorem holdChange_queue {h : HoldChange} (closed : h.closed = []) (d : Device) (i : Fin 256) :
    (d.holdChange i h).queue = d.queue := by
  unfold Device.holdChange
  dsimp only
  split
  next => exact (attendChange_queue _ i _).trans (holdBegins_queue d i)
  next before held => simp [HoldChange.before, List.isEmpty_iff.mp held, closed] at before
  next left => simp [closed] at left
  next => rfl
  next => rfl

theorem calendarTakes_queue (d : Device) (i : Fin 256) : (d.calendarTakes i).queue = d.queue := by
  unfold Device.calendarTakes
  split
  · rfl
  dsimp only
  split
  · rfl
  · exact holdChange_queue rfl _ i

/-! ### Edits and the end of a run (R17, R20, R97, R108) -/

/-- R17: an edit applied removes entries at most. -/
theorem applyEdit_queue (d : Device) (i : Fin 256) (x : Desc) (path : Bool) :
    (d.applyEdit i x path).queue.Sublist d.queue := by
  unfold Device.applyEdit
  dsimp only
  split
  · rw [calendarTakes_queue]
    split
    · exact List.filter_sublist
    · exact .refl _
  · exact .refl _

/-- R20: a staged edit judged removes entries at most. -/
theorem judgeStaged_queue (d : Device) (i : Fin 256) : (d.judgeStaged i).queue.Sublist d.queue := by
  unfold Device.judgeStaged
  split
  · exact .refl _
  split
  · exact .refl _
  split
  · exact .refl _
  dsimp only
  rw [raiseOwner_queue]
  split
  · exact .refl _
  · exact applyEdit_queue _ i _ _

theorem dropRun_queue (d : Device) (s : Fin 32) : (d.dropRun s).queue.Sublist d.queue := by
  unfold Device.dropRun
  split
  · exact .refl _
  · exact (freeRun_queue d s) ▸ judgeStaged_queue _ _

theorem deferRun_entries (d : Device) (s : Fin 32) : d.KeepsEntries (d.deferRun s) := by
  unfold Device.deferRun
  split
  · exact putBack_entries _ _ _
  · exact .rfl' _

end Sys2Proof.Machine

/-! SUPPORT. The queue's entries stay apart: runs that end, the Arbiter, the calendar, peer messages, links and
timers. -/

namespace Sys2Proof.Machine

/-! ### The end of a head run (R97, R108) -/

@[simp] theorem freeInjectorOf_queue (d : Device) (s : Fin 32) : (d.freeInjectorOf s).queue = d.queue := rfl

theorem endHead_entries (d : Device) (s : Fin 32) (f : Finding) (cancel : Bool) :
    d.KeepsEntries (d.endHead s f cancel) := by
  unfold Device.endHead
  split
  · exact .rfl' d
  split
  · exact .rfl' d
  dsimp only
  refine .trans (.before ?_ (freeRun_queue _ s)) (.of_sublist (judgeStaged_queue _ _))
  refine .thenIf (.before (.thenIf ?_ (deferRun_entries _ s)) (sendOpt_queue _ _ _)) (.of_queue (sendOpt_queue _ _ _))
  refine .before (.thenIf ?_ (.of_queue (raiseCheck_queue _ _))) (applyOutcome_queue _ _ _ _)
  exact .of_queue (giveUpListen_queue d s)

/-- R97, R108: a head run that does not end DEFERRED removes entries at most. -/
theorem endHead_queue {f : Finding} (ends : f.cls ≠ .deferred) (d : Device) (s : Fin 32) (cancel : Bool) :
    (d.endHead s f cancel).queue.Sublist d.queue := by
  unfold Device.endHead
  split
  · exact .refl _
  split
  · exact .refl _
  dsimp only
  refine (judgeStaged_queue _ _).trans ?_
  rw [freeRun_queue, if_neg ends, apply_ite Device.queue, sendOpt_queue, sendOpt_queue, ite_self, applyOutcome_queue,
    apply_ite Device.queue, raiseCheck_queue, ite_self, freeInjectorOf_queue,
    giveUpListen_queue]

/-! ### The Arbiter (R94 to R99) -/

theorem announceHead_queue (d : Device) (s : Fin 32) : (d.announceHead s).queue.Sublist d.queue := by
  unfold Device.announceHead
  split
  · exact .refl _
  split
  · exact .refl _
  split
  · rw [send_queue]
  · exact endHead_queue (by decide) d s false

/-- R94: the head run opened takes its entry out of the queue. -/
theorem openHead_queue (d : Device) (e : QueueEntry) (c : Circuit) (j : Fin 4) (slot : Fin 32) :
    (d.openHead e c j slot).queue = d.queue.filter fun x => !x.isFor e.circuit e.kind := rfl

theorem grant_entries (d : Device) : d.KeepsEntries d.grant := by
  unfold Device.grant
  dsimp only
  split
  · split
    · refine (promote_entries d).trans (.of_sublist ((announceHead_queue _ _).trans ?_))
      rw [openHead_queue]
      exact List.filter_sublist
    · exact promote_entries d
  · exact promote_entries d

theorem preempt_entries (d : Device) : d.KeepsEntries d.preempt := by
  unfold Device.preempt
  split
  · exact .rfl' d
  split
  · exact .rfl' d
  · exact .after ((putBack_entries _ _ _).trans (.of_sublist (dropRun_queue _ _))) (sendOpt_queue d _ _)

theorem grantAll_entries (fuel : Nat) (judge : Bool) (d : Device) : d.KeepsEntries (Device.grantAll fuel judge d) := by
  induction fuel generalizing judge d with
  | zero => exact .rfl' d
  | succ n ih =>
    unfold Device.grantAll
    split
    · exact (grant_entries d).trans (ih _ _)
    · exact .thenIf (.rfl' d) ((preempt_entries d).trans (ih _ _))

theorem arbitrate_entries (before : Device) (judge : Bool) (d : Device) :
    d.KeepsEntries (Device.arbitrate before judge d) := grantAll_entries _ _ d

/-- R94: an event that ends with the Arbiter's judgement. -/
theorem Device.KeepsEntries.judged {d e : Device} (h : d.KeepsEntries e) (before : Device) (judge : Bool) :
    d.KeepsEntries (Device.arbitrate before judge e) := h.trans (arbitrate_entries before judge e)

/-! ### The calendar and the clock (R44 to R74) -/

theorem intoDue_entries (d : Device) (i : Fin 256) : d.KeepsEntries (d.intoDue i) := by
  unfold Device.intoDue
  split
  · exact .rfl' d
  split
  · exact enqueue_entries d i _ _
  · exact .of_queue (sendOpt_queue d _ _)

theorem holdChange_entries (d : Device) (i : Fin 256) (h : HoldChange) : d.KeepsEntries (d.holdChange i h) := by
  have ends : ∀ d : Device, d.KeepsEntries (d.holdEnds i) := fun d => .after (intoDue_entries _ i) rfl
  unfold Device.holdChange
  dsimp only
  split
  · exact .before (.of_queue (holdBegins_queue d i)) (attendChange_queue _ i _)
  · exact .before (ends d) (attendChange_queue _ i _)
  · exact .before (.after (ends _) (holdBegins_queue d i)) (attendChange_queue _ i _)
  · exact .rfl' d
  · exact .rfl' d

theorem askBaseline_entries (d : Device) (i : Fin 256) : d.KeepsEntries (d.askBaseline i) := by
  unfold Device.askBaseline
  split
  · exact .rfl' d
  split
  · exact enqueue_entries d i _ _
  · exact .of_queue (sendOpt_queue d _ _)

theorem walkWindow_entries (d : Device) (w : Fin 16) : d.KeepsEntries (d.walkWindow w) := by
  have baselining : ∀ d : Device, d.KeepsEntries (d.toBaselining w) := fun d => by
    unfold Device.toBaselining
    split
    · exact .rfl' d
    · exact .thenIf (.rfl' d) (.after (.foldl askBaseline_entries _ _) rfl)
  have opened : ∀ d : Device, d.KeepsEntries (d.toOpen w) := fun d => by
    unfold Device.toOpen
    split
    · exact .rfl' d
    · exact .thenIf (.rfl' d) (.after (.foldl (fun d i => .of_queue (onCircuit_queue d i _)) _ _) rfl)
  have verifying : ∀ d : Device, d.KeepsEntries (d.toVerifying w) := fun d => by
    unfold Device.toVerifying
    split
    · exact .rfl' d
    · exact .thenIf (.rfl' d) (.of_queue rfl)
  have done : ∀ d : Device, d.KeepsEntries (d.toDone w) := fun d => by
    unfold Device.toDone
    split
    · exact .rfl' d
    · exact .thenIf (.rfl' d) (.of_queue rfl)
  have overdue : ∀ d : Device, d.KeepsEntries (d.toOverdue w) := fun d => by
    unfold Device.toOverdue
    split
    · exact .rfl' d
    · exact .thenIf (.rfl' d) (.of_queue rfl)
  exact ((((baselining d).trans (opened _)).trans (verifying _)).trans (done _)).trans (overdue _)

theorem deliver_entries (b a : Table (Option Window) 16) (d : Device) (i : Fin 256) :
    d.KeepsEntries (deliver b a d i) := by
  unfold deliver
  dsimp only
  split
  · exact .rfl' d
  · exact holdChange_entries d i _

theorem evaluate_entries (d : Device) : d.KeepsEntries d.evaluate :=
  (Device.KeepsEntries.foldl walkWindow_entries _ d).trans (.foldl (deliver_entries _ _) _ _)

theorem tick_entries (d : Device) : d.KeepsEntries d.tick := by
  unfold Device.tick
  split
  · split
    · exact .of_queue rfl
    · exact .of_queue rfl
  · exact .thenIf (.of_queue rfl) (evaluate_entries _)

theorem endHold_entries (d : Device) : d.KeepsEntries d.endHold := .after (evaluate_entries _) rfl

theorem tickTaken_entries (d : Device) : d.KeepsEntries d.tickTaken := by
  unfold Device.tickTaken
  split
  · exact (tick_entries d).judged _ _
  · exact tick_entries d

theorem dividerTick_entries (d : Device) : d.KeepsEntries d.dividerTick := by
  unfold Device.dividerTick
  split
  · exact .rfl' d
  · exact .after (tickTaken_entries _) rfl

theorem ppsEdge_entries (d : Device) : d.KeepsEntries d.ppsEdge := by
  have edge : d.KeepsEntries (d.onClock (·.edge d.now)) := .of_queue rfl
  exact (edge.thenIf (.of_queue (raiseLine_queue _ _))).trans (tickTaken_entries _)

theorem lineChange_entries (l : Fin 8) (high : Bool) (d : Device) : d.KeepsEntries (d.lineChange l high) := by
  have changed : d.KeepsEntries { d with lineIn := d.lineIn.set l high } := .of_queue rfl
  unfold Device.lineChange
  dsimp only
  split
  · exact changed.trans (ppsEdge_entries _)
  split
  · exact changed.judged _ _
  · exact changed

theorem ppsExpires_queue (d : Device) : d.ppsExpires.queue = d.queue := by
  unfold Device.ppsExpires
  split
  · rfl
  · rfl

theorem onExpiry_entries (d : Device) (t : Option Nat) {f : Device → Device} (h : ∀ d : Device, d.KeepsEntries (f d)) :
    d.KeepsEntries (d.onExpiry t f) := by
  unfold Device.onExpiry
  split
  · exact .rfl' d
  · exact .after (h _) rfl

theorem holdExpires_entries (d : Device) : d.KeepsEntries d.holdExpires :=
  onExpiry_entries d _ fun _ => ((endHold_entries _).before (raiseLine_queue _ _)).judged _ _

/-! ### Peer messages and links (R106 to R128, R147 to R158) -/

theorem unlessReset_entries {f : Device → Device} (h : ∀ d : Device, d.KeepsEntries (f d)) (d : Device) :
    d.KeepsEntries (unlessReset f d) := by
  unfold unlessReset
  split
  · exact .rfl' d
  · exact h d

theorem receive_entries (g : Fin 4) (m : Message) {f : Device → Device} (h : ∀ d : Device, d.KeepsEntries (f d))
    (d : Device) : d.KeepsEntries (d.receive g m f) :=
  .thenIf (.of_queue rfl) (h _)

theorem onMatched_entries (d : Device) (cid : Nat) (run : RunId) (side : Run → Option (Fin 4)) (g : Fin 4)
    {f : Fin 32 → Run → Device} (h : ∀ slot r, d.KeepsEntries (f slot r)) :
    d.KeepsEntries (d.onMatched cid run side g f) := by
  unfold Device.onMatched
  split
  · exact .rfl' d
  · exact h _ _

@[simp] theorem enter_queue (d : Device) (slot : Fin 32) (phase : Phase) (wait : Nat) :
    (d.enter slot phase wait).queue = d.queue := rfl

@[simp] theorem report_queue (d : Device) (slot : Fin 32) (r : Run) (truncated : Bool) (hops : List HopResult) :
    (d.report slot r truncated hops).queue = d.queue := sendOpt_queue d _ _

theorem withoutRun_queue (d : Device) (i : Fin 256) : (d.withoutRun i).queue = d.queue := by
  unfold Device.withoutRun
  split
  · rfl
  · exact freeRun_queue d _

theorem accept_queue (d : Device) (i : Fin 256) (c : Circuit) (run : RunId) (kind : Kind) (dwell : Nat) :
    (d.accept i c run kind dwell).queue = d.queue := by
  unfold Device.accept
  dsimp only
  split
  · exact withoutRun_queue d i
  · obtain ⟨ports, passed⟩ := passAnnounce_eq ((Device.claim { d.withoutRun i with
      runs := (d.withoutRun i).runs.set _ (some (announcedRun (d.withoutRun i) i c run kind dwell)) } _ c.cid
        c.desc).attach i run kind) c run kind dwell
    rw [passed]
    exact withoutRun_queue d i

theorem announced_entries (g : Fin 4) (cid : Nat) (run : RunId) (kind : Kind) (hop n dwell : Nat) (d : Device) :
    d.KeepsEntries (d.announced g cid run kind hop n dwell) := by
  unfold Device.announced
  split
  · exact .of_queue (send_queue d _ _)
  split
  · exact .rfl' d
  split
  · exact .of_queue (send_queue d _ _)
  · exact .thenIf (.of_queue (accept_queue d _ _ _ _ _)) (arbitrate_entries _ _ _)

theorem takeArmed_queue (d : Device) (slot : Fin 32) (r : Run) : (d.takeArmed slot r).queue = d.queue := by
  unfold Device.takeArmed
  split
  · simp
  · split
    · rfl
    · rfl
  · rfl

theorem takeStop_queue (d : Device) (slot : Fin 32) (r : Run) : (d.takeStop slot r).queue = d.queue := by
  unfold Device.takeStop
  split
  · simp [closeListen_queue]
  · simp [closeListen_queue]
  · rfl

theorem stopArrives_entries (g : Fin 4) (cid : Nat) (run : RunId) (d : Device) :
    d.KeepsEntries (d.stopArrives g cid run) :=
  onMatched_entries d cid run _ g fun slot r =>
    .thenIf (.rfl' d) ((Device.KeepsEntries.of_queue (takeStop_queue d slot r)).judged _ _)

theorem endOnList_entries (d : Device) (slot : Fin 32) (r : Run) (l : HopList) :
    d.KeepsEntries (d.endOnList slot r l) := .after (endHead_entries _ _ _ _) rfl

theorem reportArrives_entries (g : Fin 4) (cid : Nat) (run : RunId) (truncated : Bool) (hops : List HopResult)
    (d : Device) : d.KeepsEntries (d.reportArrives g cid run truncated hops) :=
  onMatched_entries d cid run _ g fun slot r => by
    split
    · exact .rfl' d
    split
    · exact .of_queue (report_queue d _ _ _ _)
    · exact (endOnList_entries d _ _ _).judged _ _
    · exact .rfl' d

theorem takeRefuse_entries (d : Device) (slot : Fin 32) (r : Run) (hop : Nat) (reason : Reason) :
    d.KeepsEntries (d.takeRefuse slot r hop reason) := by
  unfold Device.takeRefuse
  split
  · exact endHead_entries d _ _ _
  · exact .thenIf (.of_queue (by simp [giveUpListen_queue])) (.of_queue (by simp [giveUpListen_queue]))
  · exact .rfl' d

theorem outcomeArrives_entries (g : Fin 4) (o : RunOutcome) (d : Device) : d.KeepsEntries (d.outcomeArrives g o) := by
  unfold Device.outcomeArrives
  split
  · unfold Device.passOutcome
    split
    · exact .rfl' d
    · exact .thenIf (.rfl' d) (.of_queue (sendOpt_queue d _ _))
  · refine Device.KeepsEntries.judged (.after (.of_sublist (dropRun_queue _ _)) ?_) _ _
    rw [applyOutcome_queue, sendOpt_queue]

theorem cancelDown_entries (d : Device) (slot : Fin 32) (r : Run) : d.KeepsEntries (d.cancelDown slot r) :=
  .after (.of_sublist (dropRun_queue _ _)) (sendOpt_queue d _ _)

theorem requestArrives_entries (g : Fin 4) (cid : Nat) (kind : Kind) (d : Device) :
    d.KeepsEntries (d.requestArrives g cid kind) := by
  unfold Device.requestArrives
  split
  · exact .rfl' d
  split
  · exact .rfl' d
  refine .thenIf (.rfl' d) ?_
  unfold Device.takeRequest
  split
  · exact (enqueue_entries d _ _ _).judged _ _
  · exact .of_queue (sendOpt_queue d _ _)
  · exact .rfl' d

theorem loseDown_entries (d : Device) (slot : Fin 32) (r : Run) : d.KeepsEntries (d.loseDown slot r) := by
  unfold Device.loseDown
  split
  · exact .after (.of_sublist (dropRun_queue _ _)) (sendOpt_queue d _ _)
  · exact .after (.of_sublist (dropRun_queue _ _)) (sendOpt_queue d _ _)
  · exact .of_queue (report_queue d _ _ _ _)
  · exact .rfl' d
  · exact endHead_entries d _ _ _
  · exact endHead_entries d _ _ _
  · exact endHead_entries d _ _ _

theorem linkLost_entries (d : Device) (g : Fin 4) : d.KeepsEntries (d.linkLost g) := by
  refine Device.KeepsEntries.judged (.foldl (fun d slot => ?_) _ d) _ _
  unfold Device.loseLink
  split
  · exact .rfl' d
  split
  · exact cancelDown_entries d _ _
  · exact .thenIf (.rfl' d) (loseDown_entries d _ _)

theorem linkWithPlant_queue (d : Device) (g : Fin 4) (f : Link → Link) : (d.linkWithPlant g f).queue = d.queue := by
  unfold Device.linkWithPlant
  dsimp only
  split
  · rfl
  · rfl

theorem miswire_queue (d : Device) (g : Fin 4) (node degree accepting : Nat) :
    (d.miswire g node degree accepting).queue = d.queue :=
  (raiseCheck_queue _ _).trans (linkWithPlant_queue d g _)

theorem helloAgreed_queue (d : Device) (g : Fin 4) : (d.helloAgreed g).queue = d.queue := by
  unfold Device.helloAgreed
  split
  · rfl
  · exact linkWithPlant_queue d g _
  · exact linkWithPlant_queue d g _
  · rfl
  · exact linkWithPlant_queue d g _

theorem helloDisagreed_entries (d : Device) (g : Fin 4) (node degree accepting : Nat) :
    d.KeepsEntries (d.helloDisagreed g node degree accepting) := by
  have miswired : d.KeepsEntries (d.miswire g node degree accepting) := .of_queue (miswire_queue d g _ _ _)
  unfold Device.helloDisagreed
  split
  · exact .rfl' d
  · exact miswired
  · exact miswired
  · exact miswired.trans (linkLost_entries _ g)
  · exact .of_queue rfl

theorem helloArrives_entries (g : Fin 4) (node degree : Nat) (d : Device) :
    d.KeepsEntries (d.helloArrives g node degree) := by
  unfold Device.helloArrives
  split
  · exact .rfl' d
  dsimp only
  split
  · split
    · exact .of_queue (helloAgreed_queue _ g)
    · exact .after (helloDisagreed_entries _ g _ _ _) rfl
  · exact .of_queue rfl

theorem silencePasses_entries (g : Fin 4) (d : Device) : d.KeepsEntries (d.silencePasses g) :=
  onExpiry_entries d _ fun _ => .thenIf (.of_queue (linkWithPlant_queue _ g _)) (linkLost_entries _ g)

theorem dispatch_entries (g : Fin 4) (m : Message) (d : Device) : d.KeepsEntries (d.dispatch g m) := by
  cases m with
  | announce cid run kind hop n dwell => exact announced_entries g cid run kind hop n dwell d
  | armed cid run => exact onMatched_entries d cid run _ g fun slot r => .of_queue (takeArmed_queue d slot r)
  | stop cid run => exact stopArrives_entries g cid run d
  | report cid run truncated hops => exact reportArrives_entries g cid run truncated hops d
  | refuse cid run hop reason =>
    exact onMatched_entries d cid run _ g fun slot r => (takeRefuse_entries d slot r hop reason).judged _ _
  | cancel cid run => exact onMatched_entries d cid run _ g fun slot r => (cancelDown_entries d slot r).judged _ _
  | outcome o => exact outcomeArrives_entries g o d
  | request cid kind => exact requestArrives_entries g cid kind d

theorem framesArrive_entries (g : Fin 4) (bytes : List Byte) (d : Device) : d.KeepsEntries (d.framesArrive g bytes) :=
  .foldl (fun d rest => unlessReset_entries (fun d => by
    unfold Device.takeFrame
    split
    · exact .rfl' d
    split
    · exact .of_queue rfl
    · exact helloArrives_entries g _ _ d
    · exact receive_entries g _ (dispatch_entries g _) d) d) _ d

/-! ### The expiries of the runs and the Arbiter's instants (R75, R94, R98, R115 to R124) -/

theorem onWaitIn_entries (slot : Fin 32) (runs : Run → Bool) {f : Device → Run → Device}
    (h : ∀ (d : Device) r, d.KeepsEntries (f d r)) (d : Device) : d.KeepsEntries (d.onWaitIn slot runs f) := by
  unfold Device.onWaitIn
  split
  · exact .rfl' d
  · exact .thenIf (.rfl' d) (.after (h _ _) rfl)

theorem armedExpires_entries (d : Device) (slot : Fin 32) (r : Run) : d.KeepsEntries (d.armedExpires slot r) := by
  unfold Device.armedExpires
  split
  · exact endHead_entries d _ _ _
  · exact .after (cancelDown_entries _ _ _) (sendOpt_queue d _ _)

theorem dwellEnds_queue (d : Device) (slot : Fin 32) (r : Run) : (d.dwellEnds slot r).queue = d.queue := by
  simp [Device.dwellEnds, closeListen_queue]

theorem reportExpires_entries (d : Device) (slot : Fin 32) (r : Run) : d.KeepsEntries (d.reportExpires slot r) := by
  unfold Device.reportExpires
  split
  · exact (endOnList_entries d _ _ _).judged _ _
  · exact .of_queue (report_queue d _ _ _ _)

theorem requestTimer_entries (i : Fin 256) (d : Device) : d.KeepsEntries (d.requestTimer i) := by
  unfold Device.requestTimer
  split
  · exact .rfl' d
  refine onExpiry_entries d _ fun d => ?_
  unfold Device.requestExpires
  split
  · exact .of_queue (sendOpt_queue d _ _)
  · exact .after (.of_sublist (judgeStaged_queue _ i)) (attendChange_queue _ i _)

theorem eligiblePasses_entries (i : Fin 256) (kind : Kind) (d : Device) : d.KeepsEntries (d.eligiblePasses i kind) := by
  unfold Device.eligiblePasses
  split
  · exact .rfl' d
  · exact onExpiry_entries d _ fun d => arbitrate_entries d _ d

theorem preemptPasses_entries (i : Fin 256) (kind : Kind) (d : Device) : d.KeepsEntries (d.preemptPasses i kind) := by
  unfold Device.preemptPasses
  split
  · exact .rfl' d
  · exact .thenIf (.rfl' d) (.after (arbitrate_entries _ _ _) rfl)

end Sys2Proof.Machine

/-! SUPPORT. The queue's entries stay apart: the client commands, every command and every step. -/

namespace Sys2Proof.Machine

/-! ### The client commands (R164, R191) -/

theorem request_entries (r : CommandRule) (p : Fin 4) (ok : Bool) {act : Device → Device}
    (h : ∀ d : Device, d.KeepsEntries (act d)) (d : Device) : d.KeepsEntries (d.request r p ok act) := by
  unfold Device.request
  split
  · exact .rfl' d
  split
  · exact .of_queue rfl
  split
  · exact .of_queue rfl
  · exact h d

/-- A request of a command that leaves the queue as it is. -/
theorem request_keptQueue (r : CommandRule) (p : Fin 4) (ok : Bool) {act : Device → Device}
    (h : ∀ d : Device, (act d).queue = d.queue) (d : Device) : d.KeepsEntries (d.request r p ok act) :=
  request_entries r p ok (fun d => .of_queue (h d)) d

theorem onNamed_entries (d : Device) (p : Fin 4) (code : Nat) (right : Right) (body : List Byte)
    {act : Fin 256 → Circuit → Device} (h : ∀ i c, d.KeepsEntries (act i c)) :
    d.KeepsEntries (d.onNamed p code right body act) := by
  unfold Device.onNamed
  split
  · exact .of_queue rfl
  split
  · exact h _ _
  · exact .of_queue rfl

theorem onNamed_queue (d : Device) (p : Fin 4) (code : Nat) (right : Right) (body : List Byte)
    {act : Fin 256 → Circuit → Device} (h : ∀ i c, (act i c).queue = d.queue) :
    (d.onNamed p code right body act).queue = d.queue := by
  unfold Device.onNamed
  split
  · rfl
  split
  · exact h _ _
  · rfl

theorem register_queue (p : Fin 4) (body : List Byte) (d : Device) : (d.register p body).queue = d.queue := by
  unfold Device.register
  split
  · rfl
  split
  · rfl
  · exact calendarTakes_queue _ _

theorem edit_entries (p : Fin 4) (body : List Byte) (d : Device) : d.KeepsEntries (d.edit p body) := by
  unfold Device.edit
  split
  · exact .of_queue rfl
  refine onNamed_entries d p _ _ body fun i c => ?_
  split
  · exact .of_queue rfl
  next changes x _ =>
  have applied : ∀ path, d.KeepsEntries ((d.applyEdit i x path).respond p 0x11 rcOk []) := fun path =>
    .of_sublist (applyEdit_queue d i x path)
  unfold Device.acceptEdit
  dsimp only
  split
  · exact .thenIf (applied _) (arbitrate_entries _ _ _)
  split
  · exact applied false
  · exact .of_queue rfl

theorem delete_entries (p : Fin 4) (body : List Byte) (d : Device) : d.KeepsEntries (d.delete p body) :=
  onNamed_entries d p _ _ body fun i c => by
    refine Device.KeepsEntries.judged (.of_sublist ?_) _ _
    have removed : (d.remove i c.owner).queue = (d.removeEntries i).queue :=
      (onWindows_queue _ _).trans (abandonRun_queue _ i _)
    rw [respond_queue, removed]
    exact List.filter_sublist

theorem permitRequested_queue (p : Fin 4) (body : List Byte) (d : Device) :
    (d.permitRequested p body).queue = d.queue := by
  unfold Device.permitRequested
  split
  · rfl
  · exact onNamed_queue d p _ _ body fun i c => attendChange_queue _ i _

/-- R20, R82: a record confirmed, with its staged edit judged and the Arbiter's judgement after it. -/
theorem confirmed_entries (d : Device) (i : Fin 256) (c : Circuit) : d.KeepsEntries (d.confirmed i c) := by
  have served := attendChange_queue (d.onCircuit i fun c => { c with service := .inService }) i (some c)
  unfold Device.confirmed
  dsimp only
  split
  · exact .of_queue served
  · exact (Device.KeepsEntries.after (.of_sublist (judgeStaged_queue _ i)) served).judged _ _

theorem confirm_entries (p : Fin 4) (body : List Byte) (d : Device) : d.KeepsEntries (d.confirm p body) :=
  onNamed_entries d p _ _ body fun i c => by
    split
    · exact .after (confirmed_entries _ i c) (respond_queue d p _ _ _)
    · exact .of_queue rfl

theorem askRun_entries (d : Device) (p : Fin 4) (code : Nat) (i : Fin 256) (c : Circuit) (k : Kind) (cls : QClass) :
    d.KeepsEntries (d.askRun p code i c k cls) := by
  unfold Device.askRun
  split
  · exact .of_queue rfl
  split
  · exact ((enqueue_entries d i k cls).before (respond_queue _ p _ _ _)).judged _ _
  · exact .of_queue (sendOpt_queue d _ _)

theorem verify_entries (p : Fin 4) (body : List Byte) (d : Device) : d.KeepsEntries (d.verify p body) := by
  unfold Device.verify
  split
  · exact .of_queue rfl
  refine onNamed_entries d p _ _ body fun i c => ?_
  split
  · exact askRun_entries d p _ i c _ _
  · exact .of_queue rfl

theorem commitBaseline_queue (p : Fin 4) (body : List Byte) (d : Device) :
    (d.commitBaseline p body).queue = d.queue :=
  onNamed_queue d p _ _ body fun i c => by
    split
    · rfl
    · rfl

theorem discardBaseline_queue (p : Fin 4) (body : List Byte) (d : Device) :
    (d.discardBaseline p body).queue = d.queue :=
  onNamed_queue d p _ _ body fun i c => by
    split
    · rfl
    · rfl

theorem scheduleWindow_queue (p : Fin 4) (body : List Byte) (d : Device) :
    (d.scheduleWindow p body).queue = d.queue := by
  unfold Device.scheduleWindow
  split
  · rfl
  split
  · rfl
  split
  · rfl
  · rfl

theorem onWindow_entries (d : Device) (p : Fin 4) (code : Nat) (body : List Byte) {act : Fin 16 → Window → Device}
    (h : ∀ w x, d.KeepsEntries (act w x)) : d.KeepsEntries (d.onWindow p code body act) := by
  unfold Device.onWindow
  split
  · split
    · exact .of_queue rfl
    · exact h _ _
  · exact .of_queue rfl

theorem extendWindow_entries (p : Fin 4) (body : List Byte) (d : Device) : d.KeepsEntries (d.extendWindow p body) :=
  onWindow_entries d p _ body fun w x => by
    dsimp only
    split
    · exact .of_queue rfl
    split
    · exact .of_queue rfl
    · exact .of_queue rfl

theorem closeWindow_entries (p : Fin 4) (body : List Byte) (d : Device) : d.KeepsEntries (d.closeWindow p body) :=
  onWindow_entries d p _ body fun w x => by
    split
    · exact .of_queue rfl
    dsimp only
    split
    · exact .of_queue rfl
    · exact .judged (.after (evaluate_entries _) (by rfl)) _ _

theorem withdrawWindow_entries (p : Fin 4) (body : List Byte) (d : Device) :
    d.KeepsEntries (d.withdrawWindow p body) :=
  onWindow_entries d p _ body fun w x => by
    split
    · exact .of_queue rfl
    · exact .of_queue rfl

theorem holdClock_queue (p : Fin 4) (d : Device) : (d.holdClock p).queue = d.queue := by
  unfold Device.holdClock
  split
  · rfl
  · rfl

theorem releaseClock_entries (p : Fin 4) (d : Device) : d.KeepsEntries (d.releaseClock p) := by
  unfold Device.releaseClock
  split
  · exact .judged (.after (endHold_entries _) (respond_queue d p _ _ _)) _ _
  · exact .of_queue rfl

theorem setClock_queue (p : Fin 4) (body : List Byte) (d : Device) : (d.setClock p body).queue = d.queue := by
  unfold Device.setClock
  dsimp only
  split
  · rfl
  split
  · rfl
  · rfl

theorem alignClock_entries (p : Fin 4) (d : Device) : d.KeepsEntries (d.alignClock p) := by
  unfold Device.alignClock
  split
  · exact .of_queue rfl
  · exact .judged (.after (evaluate_entries _) (by rfl)) _ _

theorem putTap_queue (d : Device) (t : Fin 16) (n : TapSettings) : (d.putTap t n).queue = d.queue := by
  unfold Device.putTap
  dsimp only
  split
  · rfl
  · rfl

theorem setTap_entries (p : Fin 4) (body : List Byte) (d : Device) : d.KeepsEntries (d.setTap p body) := by
  unfold Device.setTap
  split
  · split
    · exact .of_queue rfl
    dsimp only
    split
    · exact ((Device.KeepsEntries.of_queue (putTap_queue d _ _)).before (respond_queue _ p _ _ _)).judged _ _
    · exact .of_queue rfl
  · exact .of_queue rfl

@[simp] theorem applyImage_queue (d : Device) (im : Image) : (d.applyImage im).queue = d.queue := rfl

theorem respondUnlessOff_queue (d : Device) (p : Fin 4) (code : Nat) : (d.respondUnlessOff p code).queue = d.queue := by
  unfold Device.respondUnlessOff
  split
  · rfl
  · rfl

theorem configure_queue (p : Fin 4) (body : List Byte) (d : Device) : (d.configure p body).queue = d.queue := by
  unfold Device.configure
  split
  · rfl
  split
  · rfl
  · rw [respondUnlessOff_queue, applyImage_queue]

theorem storeConfig_queue (p : Fin 4) (d : Device) : (d.storeConfig p).queue = d.queue := by
  unfold Device.storeConfig
  split
  · rfl
  split
  · rfl
  · rfl

theorem storeEnds_queue (stage : Option (Fin 5)) (d : Device) : (d.storeEnds stage).queue = d.queue := by
  unfold Device.storeEnds
  split
  · rfl
  split
  · rfl
  · exact raiseCheck_queue _ _

theorem setNodeId_queue (p : Fin 4) (body : List Byte) (d : Device) : (d.setNodeId p body).queue = d.queue := by
  unfold Device.setNodeId
  dsimp only
  split
  · rfl
  · rfl

theorem loadEnds_queue (bytes : Option (List Byte)) (d : Device) : (d.loadEnds bytes).queue = d.queue := by
  unfold Device.loadEnds
  split
  · rfl
  split
  · rfl
  · rfl

theorem tapReadings_queue (readings : Table Int 16) (d : Device) : (d.tapReadings readings).queue = d.queue := by
  unfold Device.tapReadings
  dsimp only
  split
  · rfl
  · rfl

theorem transaction_queue (p : Fin 4) (clocked : Nat) (d : Device) : (d.transaction p clocked).queue = d.queue := by
  unfold Device.transaction
  split
  · rfl
  · rfl

theorem seek_queue (p : Fin 4) (body : List Byte) (d : Device) : (d.seek p body).queue = d.queue := by
  unfold Device.seek
  split
  · rfl
  dsimp only
  split
  · rfl
  · rfl

theorem read_queue (p : Fin 4) (d : Device) : (d.read p).queue = d.queue := by
  unfold Device.read
  dsimp only
  split
  · rfl
  · rfl

theorem ackAttention_queue (p : Fin 4) (body : List Byte) (d : Device) : (d.ackAttention p body).queue = d.queue := by
  unfold Device.ackAttention
  split
  · rfl
  · rfl

theorem setNotify_queue (p : Fin 4) (body : List Byte) (d : Device) : (d.setNotify p body).queue = d.queue := by
  unfold Device.setNotify
  split
  · rfl
  · rfl

theorem clearCheck_queue (p : Fin 4) (d : Device) : (d.clearCheck p).queue = d.queue := by
  unfold Device.clearCheck Device.dropCleared
  split
  · rfl
  split
  · rfl
  split
  · rfl
  · rfl

/-- R178: after a reset the queue is empty. -/
theorem reset_entries {d e : Device} (h : e.queue = []) : d.KeepsEntries e := fun _ => by simp [Device.entriesApart, h]

/-- R164: a request with any code keeps the entries apart. -/
theorem execute_entries (p : Fin 4) (code : Nat) (body : List Byte) (d : Device) :
    d.KeepsEntries (d.execute p code body) := by
  unfold Device.execute
  split
  · exact request_keptQueue _ p _ (fun _ => by rfl) d
  · exact request_keptQueue _ p _ (seek_queue p body) d
  · exact request_keptQueue _ p _ (read_queue p) d
  · exact request_keptQueue _ p _ (fun _ => by rfl) d
  · exact request_keptQueue _ p _ (ackAttention_queue p body) d
  · exact request_keptQueue _ p _ (setNotify_queue p body) d
  · exact request_keptQueue _ p _ (clearCheck_queue p) d
  · exact request_keptQueue _ p _ (fun _ => by rfl) d
  · exact request_keptQueue _ p _ (register_queue p body) d
  · exact request_entries _ p _ (edit_entries p body) d
  · exact request_entries _ p _ (delete_entries p body) d
  · exact request_keptQueue _ p _ (permitRequested_queue p body) d
  · exact request_entries _ p _ (confirm_entries p body) d
  · exact request_entries _ p _ (verify_entries p body) d
  · exact request_entries _ p _ (fun d => onNamed_entries d p _ _ body fun i c => askRun_entries d p _ i c _ _) d
  · exact request_keptQueue _ p _ (commitBaseline_queue p body) d
  · exact request_keptQueue _ p _ (discardBaseline_queue p body) d
  · exact request_keptQueue _ p _ (fun d => onNamed_queue d p _ _ body fun _ _ => by rfl) d
  · exact request_keptQueue _ p _ (scheduleWindow_queue p body) d
  · exact request_entries _ p _ (extendWindow_entries p body) d
  · exact request_entries _ p _ (closeWindow_entries p body) d
  · exact request_entries _ p _ (withdrawWindow_entries p body) d
  · exact request_keptQueue _ p _ (holdClock_queue p) d
  · exact request_entries _ p _ (releaseClock_entries p) d
  · exact request_keptQueue _ p _ (setClock_queue p body) d
  · exact request_entries _ p _ (alignClock_entries p) d
  · exact request_entries _ p _ (setTap_entries p body) d
  · exact request_keptQueue _ p _ (configure_queue p body) d
  · exact request_keptQueue _ p _ (storeConfig_queue p) d
  · exact request_keptQueue _ p _ (setNodeId_queue p body) d
  · exact request_entries _ p _ (fun _ => reset_entries rfl) d
  · exact .of_queue rfl

theorem undecoded_entries (p : Fin 4) (bytes : List Byte) (d : Device) : d.KeepsEntries (d.undecoded p bytes) := by
  unfold Device.undecoded
  split
  · exact .rfl' d
  split
  · exact .of_queue rfl
  split
  · exact .of_queue rfl
  · exact execute_entries p _ _ d

/-! ### Every command and every step -/

/-- A command that acts on the part by an operation that keeps the entries apart. -/
theorem on_entries {s t : State} {f : Device → Device} (h : s.on f = .next t) (k : ∀ d : Device, d.KeepsEntries (f d)) :
    s.dev.KeepsEntries t.dev := by
  cases h
  exact k s.dev

/-- As `on_entries`, for a command that finds nothing to act on while the part is in reset. -/
theorem onReset_entries {s t : State} {f : Device → Device} (h : s.on (unlessReset f) = .next t)
    (k : ∀ d : Device, d.KeepsEntries (f d)) : s.dev.KeepsEntries t.dev :=
  on_entries h (unlessReset_entries k)

/-- R149: a message on a link is handed over as `Device.dispatch` has it. -/
theorem message_entries {s t : State} {g : Fin 4} (m : Message)
    (h : s.on (unlessReset (Device.receive g m (Device.dispatch g m))) = .next t) : s.dev.KeepsEntries t.dev :=
  onReset_entries h (receive_entries g m (dispatch_entries g m))

/-- R104: an expiry of a run's timer, with the Arbiter's judgement at its end. -/
theorem wait_entries {s t : State} {slot : Fin 32} {runs : Run → Bool} {f : Device → Run → Device}
    (h : s.on (unlessReset (Device.onWaitIn slot runs fun d r => Device.arbitrate d false (f d r))) = .next t)
    (k : ∀ (d : Device) r, d.KeepsEntries (f d r)) : s.dev.KeepsEntries t.dev :=
  onReset_entries h (onWaitIn_entries slot runs fun d r => (k d r).judged _ _)

theorem exec_entries (c : Instr) (s t : State) (h : exec c s = .next t) : s.dev.KeepsEntries t.dev := by
  cases c with
  | spiTransaction p clocked => exact on_entries h fun d => .of_queue (transaction_queue p clocked d)
  | undecodedRequest p bytes => exact on_entries h (undecoded_entries p bytes)
  | status p body => exact on_entries h (execute_entries p 0x01 body)
  | seek p body => exact on_entries h (execute_entries p 0x02 body)
  | read p body => exact on_entries h (execute_entries p 0x03 body)
  | readChanges p body => exact on_entries h (execute_entries p 0x04 body)
  | ackAttention p body => exact on_entries h (execute_entries p 0x05 body)
  | setNotify p body => exact on_entries h (execute_entries p 0x06 body)
  | clearCheck p body => exact on_entries h (execute_entries p 0x07 body)
  | portReset p body => exact on_entries h (execute_entries p 0x08 body)
  | registerCircuit p body => exact on_entries h (execute_entries p 0x10 body)
  | editCircuit p body => exact on_entries h (execute_entries p 0x11 body)
  | deleteCircuit p body => exact on_entries h (execute_entries p 0x12 body)
  | requestPermit p body => exact on_entries h (execute_entries p 0x13 body)
  | confirm p body => exact on_entries h (execute_entries p 0x14 body)
  | verify p body => exact on_entries h (execute_entries p 0x18 body)
  | baseline p body => exact on_entries h (execute_entries p 0x19 body)
  | commitBaseline p body => exact on_entries h (execute_entries p 0x1A body)
  | discardBaseline p body => exact on_entries h (execute_entries p 0x1B body)
  | clearBaseline p body => exact on_entries h (execute_entries p 0x1C body)
  | scheduleWindow p body => exact on_entries h (execute_entries p 0x20 body)
  | extendWindow p body => exact on_entries h (execute_entries p 0x21 body)
  | closeWindow p body => exact on_entries h (execute_entries p 0x22 body)
  | withdrawWindow p body => exact on_entries h (execute_entries p 0x23 body)
  | holdClock p body => exact on_entries h (execute_entries p 0x28 body)
  | releaseClock p body => exact on_entries h (execute_entries p 0x29 body)
  | setClock p body => exact on_entries h (execute_entries p 0x2A body)
  | alignClock p body => exact on_entries h (execute_entries p 0x2B body)
  | setTap p body => exact on_entries h (execute_entries p 0x30 body)
  | configure p body => exact on_entries h (execute_entries p 0x38 body)
  | storeConfig p body => exact on_entries h (execute_entries p 0x39 body)
  | storeEnd stage => exact onReset_entries h fun d => .of_queue (storeEnds_queue stage d)
  | setNodeId p body => exact on_entries h (execute_entries p 0x3A body)
  | restart p body => exact on_entries h (execute_entries p 0x3B body)
  | powerOnReset => exact on_entries h fun _ => reset_entries rfl
  | rstAsserted => exact on_entries h fun _ => reset_entries rfl
  | rstReleased => exact on_entries h fun d => .thenIf (.rfl' d) (.of_queue rfl)
  | loadEnd bytes => exact onReset_entries h fun d => .of_queue (loadEnds_queue bytes d)
  | clockTick => exact on_entries h dividerTick_entries
  | ppsEdge line high => exact on_entries h (lineChange_entries line high)
  | ppsLost => exact onReset_entries h fun d => .of_queue (ppsExpires_queue d)
  | holdLimit => exact onReset_entries h holdExpires_entries
  | requestTimer i => exact onReset_entries h (requestTimer_entries i)
  | tapReading readings => exact onReset_entries h fun d => .of_queue (tapReadings_queue readings d)
  | codeFrame tap channel word level => exact onReset_entries h fun _ => .of_queue rfl
  | freezeInChange line high => exact on_entries h (lineChange_entries line high)
  | eligibleAfter i kind => exact onReset_entries h (eligiblePasses_entries i kind)
  | preemptTime i kind => exact onReset_entries h (preemptPasses_entries i kind)
  | announce g cid run kind hop n dwell => exact message_entries (.announce cid run kind hop n dwell) h
  | armed g cid run => exact message_entries (.armed cid run) h
  | armedWait slot => exact wait_entries h fun d r => armedExpires_entries d slot r
  | dwell slot => exact wait_entries h fun d r => .of_queue (dwellEnds_queue d slot r)
  | stop g cid run => exact message_entries (.stop cid run) h
  | stopWait slot => exact wait_entries h fun d r => cancelDown_entries d slot r
  | report g cid run truncated hops => exact message_entries (.report cid run truncated hops) h
  | reportWait slot => exact onReset_entries h (onWaitIn_entries slot _ fun d r => reportExpires_entries d slot r)
  | refuse g cid run hop reason => exact message_entries (.refuse cid run hop reason) h
  | outcome g o => exact message_entries (.outcome o) h
  | outcomeWait slot => exact wait_entries h fun d _ => .of_sublist (dropRun_queue d slot)
  | cancel g cid run => exact message_entries (.cancel cid run) h
  | request g cid kind => exact message_entries (.request cid kind) h
  | hello g node degree => exact onReset_entries h (helloArrives_entries g node degree)
  | frameDiscarded g bytes => exact on_entries h (framesArrive_entries g bytes)
  | silenceDeadline g => exact onReset_entries h (silencePasses_entries g)
  | helloPeriod g => exact onReset_entries h fun d => .thenIf (.rfl' d) (.of_queue rfl)
  | linkTransmit g => exact onReset_entries h fun _ => .of_queue rfl
  | notifyPulseEnd p => exact onReset_entries h fun d => onExpiry_entries d _ fun _ => .of_queue rfl

/-- Settles O57: the queue is written by a request for an entry, a run put back, a promotion and removals alone, each of
which keeps the entries apart. -/
theorem queueEntriesStayApart : Obligations.QueueEntriesStayApart := by
  intro s t apart h
  unfold step at h
  split at h
  · exact on_entries h (f := Device.idle) (fun _ => .of_queue rfl) apart
  next c rest _ => exact exec_entries c { s with pending := rest } t h apart

end Sys2Proof.Machine

/-! SUPPORT. VERIFY and BASELINE: the entry they make or merge into, and the REQUEST they send upstream. -/

namespace Sys2Proof.Machine

/-! ### The entry of a circuit and kind after a write of the queue (R86) -/

theorem queued_map {d e : Device} {f : QueueEntry → QueueEntry} (h : e.queue = d.queue.map f)
    (keeps : ∀ x, (f x).key = x.key) (i : Fin 256) (k : Kind) : e.queued i k = (d.queued i k).map f := by
  have same : QueueEntry.isFor i k ∘ f = QueueEntry.isFor i k := funext fun x =>
    Bool.eq_iff_iff.mpr (by rw [Function.comp_apply, isFor_iff, isFor_iff, keeps])
  rw [Device.queued, h, List.find?_map, same, Device.queued]

theorem queued_append {d e : Device} {a : QueueEntry} (absent : d.queued a.circuit a.kind = none)
    (h : e.queue = d.queue ++ [a]) : e.queued a.circuit a.kind = some a := by
  have itself : a.isFor a.circuit a.kind = true := isFor_iff.mpr rfl
  rw [Device.queued, h, List.find?_append, show d.queue.find? _ = none from absent]
  simp [itself]

theorem queued_renumber (d : Device) (i : Fin 256) (k : Kind) :
    d.renumber.queued i k = (d.queued i k).map fun e => { e with arrival := d.renumbered e.arrival } :=
  queued_map (d := d) (by rfl) (fun _ => by rfl) i k

/-! ### A request for an entry (R86 to R88) -/

theorem isHead_of {d : Device} {i : Fin 256} {c : Circuit} (hc : d.circuit i = some c) (head : c.desc.role = .head) :
    d.isHead i = true := by simp [Device.isHead, hc, head]

/-- R88: a request merged into the entry that waits. -/
theorem mergeInto_eq (d : Device) (i : Fin 256) (k : Kind) (cls : QClass) : d.mergeInto i k cls = { d with
    queue := d.queue.map fun x =>
      if x.circuit = i ∧ x.kind = k ∧ x.cls.rank < cls.rank then { x with cls := cls, classTime := d.now }
      else x } := by
  unfold Device.mergeInto
  congr 1
  refine List.map_congr_left fun x _ => ?_
  unfold QueueEntry.merge
  by_cases same : x.circuit = i ∧ x.kind = k
  · simp [QueueEntry.isFor, same]
  · have other : ¬(x.circuit = i ∧ x.kind = k ∧ x.cls.rank < cls.rank) := fun ⟨circuit, kind, _⟩ => same ⟨circuit, kind⟩
    rw [if_neg other, if_neg (by simpa [QueueEntry.isFor] using same)]

section

variable {d : Device} {i : Fin 256} {c : Circuit} {k : Kind} {cls : QClass}

/-- R88: the class of the entry that a request is merged into. -/
theorem queued_mergeInto {e : QueueEntry} (waits : d.queued i k = some e) :
    (d.mergeInto i k cls).queued i k = some (e.merge d.now cls) := by
  have itself : e.isFor i k = true := List.find?_some waits
  rw [queued_map (d := d) rfl (fun x => ?_), waits, Option.map_some, if_pos itself]
  split
  · exact merge_key _ _ _
  · rfl

theorem merge_cls (now : Nat) (cls : QClass) (e : QueueEntry) :
    (e.merge now cls).cls = if e.cls.rank < cls.rank then cls else e.cls := by
  unfold QueueEntry.merge
  split
  · rfl
  · rfl

theorem enqueue_merges (head : d.isHead i = true) {e : QueueEntry} (waits : d.queued i k = some e) :
    d.enqueue i k cls = d.mergeInto i k cls := by simp [Device.enqueue, head, waits]

theorem enqueue_joins (head : d.isHead i = true) (absent : d.queued i k = none) :
    d.enqueue i k cls = d.newEntry i k cls := by simp [Device.enqueue, head, absent]

/-- R88: a new entry takes the next arrival number. -/
theorem newEntry_eq (counter : d.nextArrival < 4294967295) : d.newEntry i k cls = { d with
    queue := d.queue ++ [⟨i, k, cls, d.nextArrival, d.now, none⟩], nextArrival := d.nextArrival + 1 } := by
  simp only [Device.newEntry, Device.moveCounter, if_pos counter]

/-- R87: the entry that takes the last arrival number renumbers the queue and the grant records. -/
theorem newEntry_renumbers (counter : d.nextArrival = 4294967295) {entries : List QueueEntry} {used : List Nat}
    {place : Nat → Nat} (hentries : entries = d.queue ++ [⟨i, k, cls, 4294967295, d.now, none⟩])
    (hused : used = (entries.map (·.arrival) ++ d.grants.map (·.arrival)).dedup)
    (hplace : ∀ a, place a = (used.filter (· < a)).length + 1) : d.newEntry i k cls = { d with
      queue := entries.map fun e => { e with arrival := place e.arrival }
      grants := d.grants.map fun g => { g with arrival := place g.arrival }
      nextArrival := used.length + 1 } := by
  obtain rfl : place = fun a => (used.filter (· < a)).length + 1 := funext hplace
  subst hused hentries
  simp only [Device.newEntry, Device.moveCounter, counter, Nat.lt_irrefl, if_false]
  rfl

/-- R88: the entry made has the class asked for, renumbered or not. -/
theorem queued_newEntry (absent : d.queued i k = none) :
    ∃ e, (d.newEntry i k cls).queued i k = some e ∧ e.cls = cls := by
  have joined := queued_append (d := d) (e := { d with queue := d.queue ++ [⟨i, k, cls, d.nextArrival, d.now, none⟩] })
    (a := ⟨i, k, cls, d.nextArrival, d.now, none⟩) absent rfl
  unfold Device.newEntry Device.moveCounter
  split
  · exact ⟨_, joined, rfl⟩
  · rw [queued_renumber, joined]
    exact ⟨_, rfl, rfl⟩

/-! ### The answer (R191) -/

theorem disposition_of {e : Device} {a : QueueEntry} (after : e.queued i k = some a) : d.disposition e i k =
    [if (d.queued i k).isSome then 1 else 0, BitVec.ofNat 8 (codeIn qClassTable a.cls)] := by
  simp [Device.disposition, after, optByte]

/-! ### A run asked for (R89, R90) -/

variable {p : Fin 4} {code : Nat}

theorem askRun_held (held : c.service = .held) : d.askRun p code i c k cls = d.respond p code 0x17 [] := by
  rw [Device.askRun, if_pos held, rcWrongState]

theorem askRun_forwards (unheld : c.service ≠ .held) (role : c.desc.role ≠ .head) : d.askRun p code i c k cls =
    (d.sendOpt c.desc.ingress.degree? (.request c.cid k)).respond p code 0x00 [2, 255] := by
  rw [Device.askRun, if_neg unheld, if_neg role, rcOk, Circuit.upstream]

/-- R89: at a HEAD the queue takes the request, and the Arbiter judges once it is answered. -/
theorem askRun_head (unheld : c.service ≠ .held) (head : c.desc.role = .head) {e : Device}
    (he : d.enqueue i k cls = e) {a : QueueEntry} (after : e.queued i k = some a) :
    d.askRun p code i c k cls = Device.arbitrate d false (e.respond p code 0x00
      [if (d.queued i k).isSome then 1 else 0, BitVec.ofNat 8 (codeIn qClassTable a.cls)]) := by
  rw [Device.askRun, if_neg unheld, if_pos head]
  simp only [he, disposition_of after, rcOk]

/-- R88, R89: where no entry of the circuit and kind waits, the one made is answered. -/
theorem askRun_joins (hc : d.circuit i = some c) (unheld : c.service ≠ .held) (head : c.desc.role = .head)
    (absent : d.queued i k = none) : d.askRun p code i c k cls = Device.arbitrate d false
      ((d.newEntry i k cls).respond p code 0x00 [0, BitVec.ofNat 8 (codeIn qClassTable cls)]) := by
  obtain ⟨a, after, rfl⟩ := queued_newEntry (cls := cls) absent
  rw [askRun_head unheld head (enqueue_joins (isHead_of hc head) absent) after, absent]
  rfl

/-- R88, R89: where one waits, the class it comes to is answered. -/
theorem askRun_merges (hc : d.circuit i = some c) (unheld : c.service ≠ .held) (head : c.desc.role = .head)
    {e : QueueEntry} (waits : d.queued i k = some e) : d.askRun p code i c k cls = Device.arbitrate d false
      ((d.mergeInto i k cls).respond p code 0x00
        [1, BitVec.ofNat 8 (codeIn qClassTable (if e.cls.rank < cls.rank then cls else e.cls))]) := by
  rw [askRun_head unheld head (enqueue_merges (isHead_of hc head) waits) (queued_mergeInto waits), waits, merge_cls]
  rfl

end

/-- R2, R89: VERIFY, and BASELINE, of a port with the right to it ask for a run. -/
theorem exec_asksRun {s : State} {p : Fin 4} {body : List Byte} {c : Circuit} {kind : Kind} {cls : QClass} {code : Nat}
    {cmd : Instr} (takes : s.dev.takesAny p = true) (may : s.dev.mayName p body .ownerOrLine c)
    (asks : (kind = .verify ∧ code = 0x18 ∧ cmd = .verify p body ∧ body.length = 5 ∧
        ((byteAt body 4 = 0 ∧ cls = .low) ∨ (byteAt body 4 = 1 ∧ s.dev.isLine p = true ∧ cls = .urgent))) ∨
      (kind = .baseline ∧ code = 0x19 ∧ cmd = .baseline p body ∧ body.length = 4 ∧ cls = .normal)) :
    exec cmd s = .next (s.put (s.dev.askRun p code (namedIndex body) c kind cls)) := by
  rcases asks with ⟨rfl, rfl, rfl, length, ⟨plain, rfl⟩ | ⟨urgent, line, rfl⟩⟩ | ⟨rfl, rfl, rfl, length, rfl⟩
  · rw [exec_verify takes length (by omega), onNamed_taken may, plain]
    rfl
  · rw [exec_verify takes length (by omega), onNamed_taken may, urgent]
    simp [Device.mayUrge, line]
  · refine (on_request_any takes (by simp [length]) 0x19 (Device.baseline p body)).trans ?_
    rw [Device.baseline, onNamed_taken may]

/-- Settles O19: the command is `askRun`, whose cases are a HELD circuit, a node that is no HEAD, an entry made with or
without a renumbering, and an entry merged. -/
theorem verifyAndBaselineAskForARun : Obligations.VerifyAndBaselineAskForARun := by
  rintro s p body _ c kind cls code cmd takes rfl may asks
  obtain ⟨hc, -⟩ := named_circuit may.1
  rw [exec_asksRun takes may asks]
  refine ⟨fun held => ?_, fun unheld role => ?_, fun unheld head absent counter => ?_,
    fun unheld head absent counter entries used place hentries hused hplace => ?_, fun e unheld head waits => ?_⟩
  · rw [askRun_held held]
  · rw [askRun_forwards unheld role]
  · rw [askRun_joins hc unheld head absent, newEntry_eq counter]
  · rw [askRun_joins hc unheld head absent, newEntry_renumbers counter hentries hused hplace]
  · rw [askRun_merges hc unheld head waits, mergeInto_eq]

end Sys2Proof.Machine

/-! SUPPORT. The events that call for the Arbiter's judgement: an eligible-after or a preempt time that passes, and
FREEZE-IN deasserted. -/

namespace Sys2Proof.Machine

/-! ### An entry past its preempt time (R98) -/

/-- R98: an URGENT entry is overdue once it has held its class for the preempt time. -/
theorem overdueUrgent_urgent {e : QueueEntry} (urgent : e.cls = .urgent) (d : Device) :
    d.overdueUrgent e = decide (e.classTime + 1000 * d.timings.preemptTime ≤ d.now) := by
  simp [Device.overdueUrgent, urgent, seconds, Nat.mul_comm]

theorem overdueUrgent_other {e : QueueEntry} (other : e.cls ≠ .urgent) (d : Device) : d.overdueUrgent e = false := by
  simp [Device.overdueUrgent, other]

/-! ### The Arbiter's instants (R94, R98) -/

theorem exec_eligibleAfter {s : State} (h : s.dev.rst = false) (i : Fin 256) (kind : Kind) :
    exec (.eligibleAfter i kind) s = .next (s.put (s.dev.eligiblePasses i kind)) := on_unlessReset h _

theorem exec_preemptTime {s : State} (h : s.dev.rst = false) (i : Fin 256) (kind : Kind) :
    exec (.preemptTime i kind) s = .next (s.put (s.dev.preemptPasses i kind)) := on_unlessReset h _

section

variable {d : Device} {i : Fin 256} {kind : Kind} {e : QueueEntry}

theorem eligiblePasses_absent (h : d.queued i kind = none) : d.eligiblePasses i kind = d := by
  simp only [Device.eligiblePasses, h]

theorem preemptPasses_absent (h : d.queued i kind = none) : d.preemptPasses i kind = d := by
  simp only [Device.preemptPasses, h]

theorem eligiblePasses_undelayed (h : d.queued i kind = some e) (undelayed : e.eligibleAfter = none) :
    d.eligiblePasses i kind = d := by
  simp only [Device.eligiblePasses, h, undelayed, Device.onExpiry]

/-- R94, R98: an eligible-after that passes calls for grants, and for preemptions too at an overdue URGENT entry. -/
theorem eligiblePasses_delayed (h : d.queued i kind = some e) {t : Nat} (delayed : e.eligibleAfter = some t)
    {b : Device} (hb : b = { d with now := max d.now t }) :
    d.eligiblePasses i kind = Device.arbitrate b (b.overdueUrgent e) b := by
  simp only [Device.eligiblePasses, h, delayed, Device.onExpiry, hb]
  rfl

theorem preemptPasses_other (h : d.queued i kind = some e) (other : e.cls ≠ .urgent) : d.preemptPasses i kind = d := by
  simp only [Device.preemptPasses, h, if_neg other]

theorem preemptPasses_urgent (h : d.queued i kind = some e) (urgent : e.cls = .urgent) {b : Device}
    (hb : b = { d with now := max d.now (e.classTime + 1000 * d.timings.preemptTime) }) :
    d.preemptPasses i kind = Device.arbitrate b true b := by
  simp only [Device.preemptPasses, h, if_pos urgent, hb, seconds, Nat.mul_comm]
  rfl

end

/-! ### FREEZE-IN (R93) -/

/-- R93, R94: a change of line by which PPS-IN does not rise is the level written, with a judgement of grants where
FREEZE-IN falls by it. -/
theorem lineChange_noEdge {d e : Device} {line : Fin 8} {high : Bool}
    (he : e = { d with lineIn := d.lineIn.set line high }) (noEdge : d.ppsIn = true ∨ e.ppsIn = false) :
    d.lineChange line high = if d.freezeIn = true ∧ e.freezeIn = false then Device.arbitrate d false e else e := by
  have stays : (!d.ppsIn && e.ppsIn) = false := by
    obtain stands | low := noEdge
    · rw [stands]; rfl
    · rw [low, Bool.and_false]
  unfold Device.lineChange
  dsimp only
  rw [← he, stays]
  simp only [Bool.false_eq_true, if_false, Bool.and_eq_true, Bool.not_eq_true']

/-- Settles O35: an entry or an instant that is not there, the instants that are, and the fall of FREEZE-IN. -/
theorem arbiterJudgesAtItsEvents : Obligations.ArbiterJudgesAtItsEvents := by
  refine fun s => ⟨fun h i kind => ⟨fun absent => ?_, fun e queued =>
    ⟨fun undelayed => ?_, fun other => ⟨?_, ?_⟩, fun urgent => ⟨?_, ?_⟩⟩⟩, ?freeze⟩
  · rw [exec_eligibleAfter h, exec_preemptTime h, eligiblePasses_absent absent, preemptPasses_absent absent]
    exact ⟨rfl, rfl⟩
  · rw [exec_eligibleAfter h, eligiblePasses_undelayed queued undelayed, put_self]
  · rw [exec_preemptTime h, preemptPasses_other queued other, put_self]
  · intro t b delayed hb
    rw [exec_eligibleAfter h, eligiblePasses_delayed queued delayed hb, overdueUrgent_other other]
  · intro b hb
    rw [exec_preemptTime h, preemptPasses_urgent queued urgent hb]
  · intro t b delayed hb
    rw [exec_eligibleAfter h, eligiblePasses_delayed queued delayed hb, overdueUrgent_urgent urgent, hb]
    rfl
  case freeze =>
    intro line high d hd noEdge
    have changed : exec (.freezeInChange line high) s = .next (s.put (s.dev.lineChange line high)) := rfl
    rw [changed, lineChange_noEdge hd noEdge]
    refine ⟨fun was falls => ?_, fun stays => ?_⟩
    · rw [if_pos ⟨was, falls⟩]
    · rw [if_neg fun ⟨was, falls⟩ => by simp [was, falls] at stays]

end Sys2Proof.Machine

/-! SUPPORT. What the Arbiter takes: the best entry in grant order, the run granted last, and a judgement that goes on
while something can be granted. -/

namespace Sys2Proof.Machine

/-! ### Grant order (R86, R94, R101) -/

/-- R94: `a` may stand in front of `b` in grant order. -/
def QueueEntry.notAfter (a b : QueueEntry) : Prop :=
  b.cls.rank ≤ a.cls.rank ∧ (b.cls = a.cls → a.arrival ≤ b.arrival)

/-- R86: a class is known by its rank. -/
theorem rank_inj {a b : QClass} (h : a.rank = b.rank) : a = b := by
  revert h
  cases a <;> cases b <;> decide

theorem before_iff {a b : QueueEntry} : a.before b = true ↔
    b.cls.rank < a.cls.rank ∨ (a.cls = b.cls ∧ a.arrival < b.arrival) := by simp [QueueEntry.before]

theorem notAfter_of_before {a b : QueueEntry} (h : a.before b = true) : a.notAfter b := by
  obtain higher | ⟨same, earlier⟩ := before_iff.mp h
  · exact ⟨higher.le, fun same => absurd higher (by rw [same]; exact lt_irrefl _)⟩
  · exact ⟨by rw [same], fun _ => earlier.le⟩

theorem notAfter_of_not_before {a b : QueueEntry} (h : ¬a.before b = true) : b.notAfter a := by
  rw [before_iff, not_or, not_and] at h
  obtain ⟨rank, arrival⟩ := h
  exact ⟨by omega, fun same => not_lt.mp (arrival same)⟩

theorem notAfter_trans {a b c : QueueEntry} (h : a.notAfter b) (k : b.notAfter c) : a.notAfter c := by
  refine ⟨k.1.trans h.1, fun same => ?_⟩
  have middle : b.cls = a.cls := rank_inj (le_antisymm h.1 (by rw [← same]; exact k.1))
  exact (h.2 middle).trans (k.2 (same.trans middle.symm))

theorem mem_insertEntry {e x : QueueEntry} {l : List QueueEntry} : x ∈ insertEntry e l ↔ x = e ∨ x ∈ l := by
  induction l with
  | nil => simp [insertEntry]
  | cons a l ih =>
    unfold insertEntry
    split
    · simp
    · rw [List.mem_cons, ih, List.mem_cons, or_left_comm]

theorem insertEntry_ordered {l : List QueueEntry} (h : l.Pairwise QueueEntry.notAfter) (e : QueueEntry) :
    (insertEntry e l).Pairwise QueueEntry.notAfter := by
  induction l with
  | nil => simp [insertEntry]
  | cons a l ih =>
    obtain ⟨first, rest⟩ := List.pairwise_cons.mp h
    unfold insertEntry
    split
    next before =>
      have front := notAfter_of_before before
      refine List.pairwise_cons.mpr ⟨fun x hx => ?_, h⟩
      obtain rfl | hx := List.mem_cons.mp hx
      · exact front
      · exact notAfter_trans front (first x hx)
    next after =>
      refine List.pairwise_cons.mpr ⟨fun x hx => ?_, ih rest⟩
      obtain rfl | hx := mem_insertEntry.mp hx
      · exact notAfter_of_not_before after
      · exact first x hx

/-- R94, R101: grant order holds the queue's entries and is ordered. -/
theorem grantOrder_ordered (d : Device) :
    (∀ x, x ∈ d.grantOrder ↔ x ∈ d.queue) ∧ d.grantOrder.Pairwise QueueEntry.notAfter := by
  have sorted : ∀ (l acc : List QueueEntry), acc.Pairwise QueueEntry.notAfter →
      (∀ x, x ∈ l.foldl (fun acc e => insertEntry e acc) acc ↔ x ∈ acc ∨ x ∈ l) ∧
        (l.foldl (fun acc e => insertEntry e acc) acc).Pairwise QueueEntry.notAfter := by
    intro l
    induction l with
    | nil => exact fun acc h => ⟨by simp, h⟩
    | cons a l ih =>
      intro acc h
      obtain ⟨members, ordered⟩ := ih (insertEntry a acc) (insertEntry_ordered h a)
      refine ⟨fun x => ?_, ordered⟩
      rw [List.foldl_cons, members, mem_insertEntry, List.mem_cons, or_assoc, or_left_comm]
  obtain ⟨members, ordered⟩ := sorted d.queue [] .nil
  exact ⟨fun x => (members x).trans (by simp), ordered⟩

/-- R94: the entry a grant takes stands in front of every eligible one. -/
theorem best_front {d : Device} {e : QueueEntry} (h : d.best = some e) : e ∈ d.queue ∧ d.eligible e = true ∧
    ∀ x ∈ d.queue, d.eligible x = true → e.notAfter x := by
  obtain ⟨members, ordered⟩ := grantOrder_ordered d
  obtain ⟨eligible, front, back, split, passed⟩ := List.find?_eq_some_iff_append.mp h
  refine ⟨(members e).mp (by simp [split]), eligible, fun x hx able => ?_⟩
  rw [← members, split, List.mem_append, List.mem_cons] at hx
  rw [split, List.pairwise_append, List.pairwise_cons] at ordered
  obtain hx | rfl | hx := hx
  · simpa [able] using passed x hx
  · exact ⟨le_rfl, fun _ => le_rfl⟩
  · exact ordered.2.1.1 x hx

/-! ### The run a preemption takes (R98) -/

/-- R98: of two grant records, the one granted later, and the one that stands behind among equals. -/
def laterGrant (best : Option GrantRecord) (g : GrantRecord) : Option GrantRecord :=
  match best with
  | none => some g
  | some b => if b.grantedAt ≤ g.grantedAt then some g else some b

theorem victim_eq (d : Device) : d.victim = (d.grants.filter d.preemptable).foldl laterGrant none := rfl

theorem foldl_laterGrant {l : List GrantRecord} {b g : GrantRecord} (h : l.foldl laterGrant (some b) = some g) :
    (g = b ∨ g ∈ l) ∧ b.grantedAt ≤ g.grantedAt ∧ ∀ x ∈ l, x.grantedAt ≤ g.grantedAt := by
  induction l generalizing b with
  | nil =>
    obtain rfl : b = g := Option.some.inj h
    exact ⟨.inl rfl, le_rfl, nofun⟩
  | cons a l ih =>
    rw [List.foldl_cons, laterGrant] at h
    split at h
    next later =>
      obtain ⟨origin, first, rest⟩ := ih h
      exact ⟨.inr (by simpa using origin), later.trans first, by simpa using ⟨first, rest⟩⟩
    next earlier =>
      obtain ⟨origin, first, rest⟩ := ih h
      refine ⟨origin.imp_right (List.mem_cons_of_mem a), first, ?_⟩
      simpa using ⟨(not_le.mp earlier).le.trans first, rest⟩

/-- R98: a preemption takes a grant record that may be taken, and none of those was granted later. -/
theorem victim_latest {d : Device} {g : GrantRecord} (h : d.victim = some g) : g ∈ d.grants ∧
    d.preemptable g = true ∧ ∀ x ∈ d.grants, d.preemptable x = true → x.grantedAt ≤ g.grantedAt := by
  have latest : g ∈ d.grants.filter d.preemptable ∧ ∀ x ∈ d.grants.filter d.preemptable, x.grantedAt ≤ g.grantedAt := by
    rw [victim_eq] at h
    generalize d.grants.filter d.preemptable = l at h ⊢
    cases l with
    | nil => exact absurd h nofun
    | cons a l =>
      obtain ⟨origin, first, rest⟩ := foldl_laterGrant (b := a) h
      exact ⟨by simpa using origin, by simpa using ⟨first, rest⟩⟩
  obtain ⟨mem, later⟩ := latest
  obtain ⟨granted, able⟩ := List.mem_filter.mp mem
  exact ⟨granted, able, fun x hx able => later x (List.mem_filter.mpr ⟨hx, able⟩)⟩

/-! ### What a grant takes out of the queue (R94, R95) -/

/-- R95: what makes an entry eligible does not change by a promotion. -/
theorem eligible_promote (d : Device) (e : QueueEntry) (now age : Nat) :
    d.promote.eligible (e.promote now age) = d.eligible e := by
  have kept : (e.promote now age).circuit = e.circuit ∧ (e.promote now age).eligibleAfter = e.eligibleAfter := by
    unfold QueueEntry.promote
    split
    · split
      · exact ⟨rfl, rfl⟩
      · exact ⟨rfl, rfl⟩
      · exact ⟨rfl, rfl⟩
      · exact ⟨rfl, rfl⟩
    · exact ⟨rfl, rfl⟩
  obtain ⟨circuit, eligibleAfter⟩ := kept
  unfold Device.eligible Device.blocking
  rw [circuit, eligibleAfter]
  rfl

/-- R95: a promotion stops at HIGH. -/
theorem promote_urgent {now age : Nat} {e : QueueEntry} (h : e.cls ≠ .urgent) : (e.promote now age).cls ≠ .urgent := by
  unfold QueueEntry.promote
  split
  · split
    · exact nofun
    · exact nofun
    · exact h
    · exact h
  · exact h

/-- R92: an eligible entry is of a record and finds a free run slot. -/
theorem eligible_finds {d : Device} {e : QueueEntry} (h : d.eligible e = true) :
    ∃ c slot, d.circuit e.circuit = some c ∧ d.runs.firstFree = some slot := by
  rw [Device.eligible, Device.blocking] at h
  split at h
  · exact absurd h nofun
  next c hc =>
    cases free : d.runs.firstFree with
    | some slot => exact ⟨c, slot, hc, rfl⟩
    | none =>
      rw [free] at h
      split at h
      · exact absurd h nofun
      split at h
      · exact absurd h nofun
      split at h
      · exact absurd h nofun
      · exact absurd h nofun

/-- R94: a grant takes one entry out of the promoted queue, and a run that ends at once removes entries at most. -/
theorem grant_takes {d : Device} (h : d.canGrant = true) :
    ∃ e ∈ d.promote.queue, d.grant.queue.Sublist (d.promote.queue.filter fun x => !x.isFor e.circuit e.kind) := by
  obtain ⟨injector, waiting⟩ := (Bool.and_eq_true _ _).mp h
  obtain ⟨x, hx, able⟩ := List.any_eq_true.mp waiting
  obtain ⟨j, hj⟩ := Option.isSome_iff_exists.mp injector
  have some_best : d.promote.best ≠ none := by
    rw [Device.best, Ne, List.find?_eq_none]
    intro none
    refine none (x.promote d.now (seconds d.timings.promotionAge)) ?_ (by rw [eligible_promote]; exact able)
    exact ((grantOrder_ordered _).1 _).mpr (List.mem_map_of_mem hx)
  obtain ⟨e, he⟩ := Option.ne_none_iff_exists'.mp some_best
  obtain ⟨mem, eligible, -⟩ := best_front he
  obtain ⟨c, slot, hc, free⟩ := eligible_finds eligible
  refine ⟨e, mem, ?_⟩
  rw [Device.grant]
  simp only [he, show d.promote.freeInjector = some j from hj, free, hc]
  rw [← openHead_queue d.promote e c j slot]
  exact announceHead_queue _ slot

/-- R94: each grant leaves fewer entries than it found. -/
theorem grant_shorter {d : Device} (h : d.canGrant = true) : d.grant.queue.length < d.queue.length := by
  obtain ⟨e, mem, left⟩ := grant_takes h
  have promoted : d.promote.queue.length = d.queue.length := List.length_map _
  rw [← promoted]
  refine left.length_le.trans_lt (List.length_filter_lt_length_iff_exists.mpr ⟨e, mem, ?_⟩)
  simp [isFor_iff.mpr (show e.key = _ from rfl)]

/-- R95: a grant makes no entry URGENT. -/
theorem grant_urgent {d : Device} (h : d.canGrant = true) (calm : ∀ x ∈ d.queue, x.cls ≠ .urgent) :
    ∀ x ∈ d.grant.queue, x.cls ≠ .urgent := by
  obtain ⟨e, -, left⟩ := grant_takes h
  intro x hx
  obtain ⟨y, hy, rfl⟩ := List.mem_map.mp (List.mem_of_mem_filter (left.subset hx))
  exact promote_urgent (calm y hy)

/-! ### The judgement (R94, R98) -/

/-- R98: without an URGENT entry nothing is preempted. -/
theorem canPreempt_calm {d : Device} (calm : ∀ x ∈ d.queue, x.cls ≠ .urgent) : d.canPreempt = false := by
  have none : (d.queue.any fun e => d.overdueUrgent e && d.eligible e) = false := List.any_eq_false.mpr fun x hx => by
    rw [overdueUrgent_other (calm x hx), Bool.false_and]
    exact Bool.false_ne_true
  rw [Device.canPreempt, none, Bool.and_false, Bool.false_and]

theorem grantAll_idle {d : Device} (grants : d.canGrant = false) (preempts : d.canPreempt = false) (fuel : Nat)
    (judge : Bool) : Device.grantAll fuel judge d = d := by
  cases fuel with
  | zero => rfl
  | succ n => simp [Device.grantAll, grants, preempts]

/-- R94: without an URGENT entry the judgement goes on until nothing can be granted, since each grant takes an entry. -/
theorem grantAll_calm {d : Device} (calm : ∀ x ∈ d.queue, x.cls ≠ .urgent) {fuel : Nat} (enough : d.queue.length < fuel)
    (judge : Bool) : (Device.grantAll fuel judge d).canGrant = false := by
  induction fuel generalizing judge d with
  | zero => omega
  | succ n ih =>
    cases grants : d.canGrant with
    | false => rw [grantAll_idle grants (canPreempt_calm calm), grants]
    | true =>
      have shorter := grant_shorter grants
      rw [Device.grantAll, if_pos grants]
      exact ih (grant_urgent grants calm) (by omega) true

/-- Settles O36: the entry by `best_front`, the run by `victim_latest`, and the end of the judgement by `grantAll_idle`
and `grantAll_calm`. -/
theorem arbiterChoosesTheBestAndGoesOn : Obligations.ArbiterChoosesTheBestAndGoesOn := by
  refine fun d => ⟨fun e best => ?_, fun g victim => victim_latest victim,
    fun grants preempts before judge => grantAll_idle grants preempts _ _,
    fun calm before judge => grantAll_calm calm (by omega) _⟩
  obtain ⟨mem, eligible, front⟩ := best_front best
  exact ⟨mem, eligible, front⟩

end Sys2Proof.Machine

/-! SUPPORT. The taps a run needs and the listen slots it claims and frees, what a grant opens, and what a preemption
puts back. -/

namespace Sys2Proof.Machine

/-! ### The taps a run needs (R5, R29) -/

/-- R5: the line tap of a degree is the lowest tap with the function and the degree. -/
theorem lineTap_eq_some {d : Device} {fn : TapFn} {g : Fin 4} {t : Fin 16} : d.lineTap fn g = some t ↔
    ((d.taps.get t).settings.fn = fn ∧ (d.taps.get t).settings.degree = some g) ∧
      ∀ u, u < t → ¬((d.taps.get u).settings.fn = fn ∧ (d.taps.get u).settings.degree = some g) := by
  simp [Device.lineTap, Table.find_lowest, Device.tapSettings]

theorem placeTap_eq_some {d : Device} {fn : TapFn} {x : Place} {t : Fin 16} :
    d.placeTap fn x = some t ↔ x = .tap t ∨ ∃ g, x = .degree g ∧ d.lineTap fn g = some t := by
  cases x with
  | tap u => simp [Device.placeTap]
  | degree g => simp [Device.placeTap]

theorem isEgress_iff {fn : TapFn} : fn.isEgress = true ↔ fn = .lineOut ∨ fn = .drop := by simp [TapFn.isEgress]

/-- R29: a tap is needed as the ingress tap, else as the egress tap, else as a tap that watches a way out. -/
theorem purposeOf_eq_some {d : Device} {x : Desc} {t : Fin 16} {purpose : Purpose} :
    d.purposeOf x t = some purpose ↔ (d.ingressTap x = some t ∧ purpose = .ingress) ∨
      (d.ingressTap x ≠ some t ∧ d.egressTap x = some t ∧ purpose = .expectedEgress) ∨
      (d.ingressTap x ≠ some t ∧ d.egressTap x ≠ some t ∧
        ((d.taps.get t).settings.fn = .lineOut ∨ (d.taps.get t).settings.fn = .drop) ∧ purpose = .watch) := by
  have watched : (d.tapSettings t).fn.isEgress = true ↔
    (d.taps.get t).settings.fn = .lineOut ∨ (d.taps.get t).settings.fn = .drop := isEgress_iff
  unfold Device.purposeOf
  split
  next ingress => simp [ingress, eq_comm]
  next ingress =>
  split
  next egress => simp [ingress, egress, eq_comm]
  next egress =>
  split
  next watches => simp [ingress, egress, watched.mp watches, eq_comm (a := purpose)]
  next other => simp [ingress, egress, mt watched.mpr other]

/-! ### Listen slots claimed and freed (R31, R32, R36) -/

/-- R31: a listen is possible where every needed tap has a free slot. -/
theorem canListen_iff {d : Device} {x : Desc} : d.canListen x = true ↔
    ∀ t purpose, d.purposeOf x t = some purpose → ∃ j, (d.taps.get t).slots.get j = none := by
  have free : ∀ t, (d.taps.get t).slots.firstFree.isSome = true ↔ ∃ j, (d.taps.get t).slots.get j = none := fun t => by
    rw [← not_iff_not, Bool.not_eq_true, Option.isSome_eq_false_iff, Option.isNone_iff_eq_none, Table.firstFree_none]
    simp [Option.isSome_iff_ne_none]
  simp only [Device.canListen, List.all_eq_true, List.mem_finRange, true_imp_iff, Bool.or_eq_true, free]
  refine forall_congr' fun t => ?_
  cases d.purposeOf x t with
  | none => simp
  | some purpose => simp

theorem claim_unneeded {d : Device} {x : Desc} {t : Fin 16} (h : d.purposeOf x t = none) (slot : Fin 32) (cid : Nat) :
    (d.claim slot cid x).taps.get t = d.taps.get t := by simp [Device.claim, h]

/-- R32: on a needed tap the lowest free slot is claimed. -/
theorem claim_needed {d : Device} {x : Desc} {t : Fin 16} {purpose : Purpose} {j : Fin 8}
    (h : d.purposeOf x t = some purpose) (free : (d.taps.get t).slots.firstFree = some j) (slot : Fin 32) (cid : Nat) :
    (d.claim slot cid x).taps.get t = { d.taps.get t with
      slots := (d.taps.get t).slots.set j (some ⟨slot, cid, x.channel, purpose, 0, 0, 0, 0⟩) } := by
  simp [Device.claim, h, free, ListenSlot.fresh]

/-- R36: a slot is free after a release exactly if it was, or was the run's. -/
theorem releaseSlots_free (d : Device) (slot : Fin 32) (t : Fin 16) (j : Fin 8) :
    ((d.releaseSlots slot).taps.get t).slots.get j = none ↔
      (d.taps.get t).slots.get j = none ∨ ∃ a, (d.taps.get t).slots.get j = some a ∧ a.run = slot := by
  simp only [Device.releaseSlots, Table.get_mapIdx]
  cases (d.taps.get t).slots.get j <;> simp

theorem releaseSlots_other {d : Device} {slot : Fin 32} {t : Fin 16} {j : Fin 8} {a : ListenSlot}
    (h : (d.taps.get t).slots.get j = some a) (other : a.run ≠ slot) :
    ((d.releaseSlots slot).taps.get t).slots.get j = some a := by
  simp [Device.releaseSlots, h, other]

/-! ### The promotion at a grant (R95) -/

theorem promote_eq (now age : Nat) (x : QueueEntry) : x.promote now (seconds age) =
    if x.classTime + 1000 * age < now then
      (if x.cls = .low then { x with cls := .normal, classTime := now }
        else if x.cls = .normal then { x with cls := .high, classTime := now } else x)
    else x := by
  rw [QueueEntry.promote, seconds, Nat.mul_comm]
  refine if_congr Iff.rfl ?_ rfl
  cases h : x.cls <;> simp

/-! ### What a grant opens (R94, R96, R103, R107) -/

theorem attach_head {d : Device} {i : Fin 256} {c : Circuit} (hc : d.circuit i = some c) (head : c.desc.role = .head)
    (run : RunId) (kind : Kind) :
    d.attach i run kind = { d with circuits := d.circuits.set i (some { c with run := some ⟨run, kind⟩ }) } := by
  rw [Device.attach, onCircuit_eq hc]
  dsimp only
  rw [if_pos head]

theorem openHead_eq {b : Device} {e : QueueEntry} {c : Circuit} (hc : b.circuit e.circuit = some c)
    (head : c.desc.role = .head) (j : Fin 4) (slot : Fin 32) : b.openHead e c j slot = { b with
      runs := b.runs.set slot (some (headRun b e c))
      nextRun := if b.nextRun < 65535 then b.nextRun + 1 else 1
      queue := b.queue.filter fun x => !(x.circuit == e.circuit && x.kind == e.kind)
      injectors := b.injectors.set j (.granted slot)
      grants := b.grants ++ [⟨slot, j, e.circuit, e.kind, e.cls, e.arrival, e.classTime, b.now⟩]
      circuits := b.circuits.set e.circuit (some { c with run := some ⟨⟨b.nodeId, b.nextRun⟩, e.kind⟩ })
      taps := (b.claim slot c.cid c.desc).taps } := by
  unfold Device.openHead
  dsimp only
  rw [attach_head (c := c) (by exact hc) head]
  rfl

/-- R107: a granted run announces itself on a link that is UP, and ends LINK-DOWN on any other. -/
theorem announceHead_eq {m : Device} {slot : Fin 32} {r : Run} {c : Circuit} {g : Fin 4}
    (hr : m.runs.get slot = some r) (hc : m.circuit r.circuit = some c) (down : r.down = some g) : m.announceHead slot =
      if (m.links.get g).state = .up then m.send g (.announce c.cid r.id r.kind 1 r.n r.dwell)
      else m.endHead slot ⟨.incomplete, some 1, some (.peer .linkDown)⟩ false := by
  simp only [Device.announceHead, hr, down, Device.cidOf, hc, Option.map_some, Option.getD_some]

theorem grant_eq {d b : Device} {e : QueueEntry} {j : Fin 4} {slot : Fin 32} {c : Circuit} (hb : d.promote = b)
    (best : b.best = some e) (injector : b.freeInjector = some j) (free : b.runs.firstFree = some slot)
    (hc : b.circuit e.circuit = some c) : d.grant = (b.openHead e c j slot).announceHead slot := by
  subst hb
  simp only [Device.grant, best, injector, free, hc]

/-! ### What a preemption puts back (R98, R99) -/

/-- R99: a run put back makes its old entry again or is merged into the one that waits. -/
theorem putBack_eq {d : Device} {v : GrantRecord} (head : d.isHead v.circuit = true) (t : Option Nat) :
    ∃ queue, d.putBack v t = { d with queue := queue } ∧
      (d.queued v.circuit v.kind = none →
        queue = d.queue ++ [⟨v.circuit, v.kind, v.cls, v.arrival, v.classTime, t⟩]) ∧
      ((d.queued v.circuit v.kind).isSome = true → queue = (d.mergeInto v.circuit v.kind v.cls).queue) := by
  cases h : d.queued v.circuit v.kind with
  | none => exact ⟨_, by simp [Device.putBack, head, h], fun _ => rfl, nofun⟩
  | some e =>
    have merged : d.putBack v t = d.mergeInto v.circuit v.kind v.cls := by simp [Device.putBack, head, h]
    exact ⟨_, merged, nofun, fun _ => rfl⟩

theorem detached_head {c : Circuit} (head : c.desc.role = .head) (d : Device) : c.detached d = { c with run := none } :=
  if_neg fun ⟨other, _⟩ => other head

theorem freeInjectorOf_injector (d : Device) (slot : Fin 32) (j : Fin 4) : (d.freeInjectorOf slot).injectors.get j =
    if (d.injectors.get j).run = some slot then .free else d.injectors.get j := Table.get_mapIdx _ _ _

/-- R98, R99, R109: a preemption, where the grant record and the run it names agree. -/
theorem preempt_eq {d : Device} {v : GrantRecord} {r : Run} {c : Circuit} (victim : d.victim = some v)
    (hr : d.runs.get v.slot = some r) (hc : d.circuit r.circuit = some c) (circuit : v.circuit = r.circuit)
    (head : c.desc.role = .head) : ∃ queue ports, d.preempt = Device.judgeStaged { d with
        runs := d.runs.set v.slot none
        grants := d.grants.filter fun g => g.slot != v.slot
        injectors := (d.freeInjectorOf v.slot).injectors
        taps := (if r.listen = .opened then d.releaseSlots v.slot else d).taps
        circuits := d.circuits.set r.circuit (some { c with run := none })
        queue := queue
        ports := ports
        links := (d.sendOpt r.down (.cancel c.cid r.id)).links } r.circuit ∧
      (d.queued v.circuit v.kind = none →
        queue = d.queue ++ [⟨v.circuit, v.kind, v.cls, v.arrival, v.classTime, none⟩]) ∧
      ((d.queued v.circuit v.kind).isSome = true → queue = (d.mergeInto v.circuit v.kind v.cls).queue) := by
  have cid : d.cidOf r.circuit = c.cid := by simp [Device.cidOf, hc]
  obtain ⟨links, ports, sent⟩ := sendOpt_eq d r.down (.cancel c.cid r.id)
  obtain ⟨queue, back, joins, merges⟩ :=
    putBack_eq (d := { d with links := links, ports := ports }) (v := v) (by rw [circuit]; exact isHead_of hc head) none
  refine ⟨queue, ports, ?_, joins, merges⟩
  have dropped := dropRun_eq (d := { d with links := links, ports := ports, queue := queue }) hr hc
  simp only [Device.preempt, victim, hr, cid]
  rw [sent, back, dropped, detached_head head, apply_ite Device.taps]
  rfl

/-- Settles O37: the taps and slots, the promotion, a grant by `grant_eq` with `openHead_eq` and `announceHead_eq`, and
a preemption by `preempt_eq`. -/
theorem grantOpensAndPreemptionPutsBack : Obligations.GrantOpensAndPreemptionPutsBack := by
  refine fun d => ⟨?taps, ?promotion, ?grant, ?preemption⟩
  case taps =>
    intro slot cid x isIn isOut needs line hline hin hout hneeds
    have lines : ∀ fn g t, line fn g t ↔ d.lineTap fn g = some t := fun fn g t => by rw [hline, lineTap_eq_some]
    have ingress : ∀ t, isIn t ↔ d.ingressTap x = some t := fun t => by
      simp only [hin, lines, Device.ingressTap, placeTap_eq_some]
    have egress : ∀ t, isOut t ↔ d.egressTap x = some t := fun t => by
      simp only [hout, lines, Device.egressTap, placeTap_eq_some]
    have needed : ∀ t purpose, needs t purpose ↔ d.purposeOf x t = some purpose := fun t purpose => by
      rw [hneeds, purposeOf_eq_some, ingress, egress]
    simp only [needed]
    refine ⟨canListen_iff, rfl, fun t unneeded => ?_, fun t purpose j h free lowest => ?_, rfl, fun t => ⟨?_, fun j =>
      ⟨releaseSlots_free d slot t j, fun a h other => releaseSlots_other h other⟩⟩⟩
    · exact claim_unneeded (Option.eq_none_iff_forall_ne_some.mpr unneeded) slot cid
    · exact claim_needed h (Table.firstFree_eq_some.mpr ⟨free, lowest⟩) slot cid
    · simp [Device.releaseSlots]
  case promotion =>
    rintro e rfl
    exact ⟨rfl, List.map_congr_left fun x _ => promote_eq _ _ x⟩
  case grant =>
    rintro b e j slot c g hb best injector free hc head egress r m hr hm
    have run : headRun b e c = r := by
      simp [hr, headRun, egress, Place.degree?, Device.armedWait, seconds, Nat.mul_comm]
    have opened : b.openHead e c j slot = m := by rw [openHead_eq hc head, run, hm, hr]
    have announced := announceHead_eq (m := m) (slot := slot) (r := r) (c := { c with run := some ⟨r.id, e.kind⟩ })
      (g := g) (by simp [hm]) (by simp [hm, hr, Device.circuit]) (by simp [hr])
    rw [grant_eq hb best injector free hc, opened, announced]
    refine ⟨fun up => ?_, fun down => ?_⟩
    · rw [if_pos (by simpa [hm] using up), hr]
    · rw [if_neg (by simpa [hm] using down)]
  case preemption =>
    intro v r c victim hr hc circuit kind head
    obtain ⟨queue, ports, preempted, joins, merges⟩ := preempt_eq victim hr hc circuit head
    rw [circuit, kind] at joins merges
    refine ⟨_, preempted, rfl, freeInjectorOf_injector d v.slot, rfl, rfl, fun absent => ?_, fun waits => ?_, rfl, rfl,
      rfl⟩
    · rw [circuit, kind]; exact joins absent
    · rw [mergeInto_eq] at merges; exact merges waits

end Sys2Proof.Machine

/-! SUPPORT. Probe-run messages and waits: what is left of the command, a run that enters a phase, and an ANNOUNCE
refused. -/

namespace Sys2Proof.Machine

/-! ### A message or an expiry reaches its run (R104, R106, R149) -/

/-- R149: a well-formed message on an UP link is what the Run Engine does with it. -/
theorem on_received {s : State} {g : Fin 4} {m : Message} (takes : s.dev.linkTakes g = true) (wf : m.wf = true)
    (f : Device → Device) : s.on (unlessReset (Device.receive g m f)) = .next (s.put (f (s.dev.heard g))) := by
  rw [on_eq_put, receive_taken takes wf]

/-- R106: a message on the degree where its run expects it is what that run does with it. -/
theorem on_matched {s : State} {g : Fin 4} {m : Message} {cid : Nat} {run : RunId} {slot : Fin 32} {r : Run}
    {side : Run → Option (Fin 4)} (takes : s.dev.linkTakes g = true) (wf : m.wf = true)
    (found : s.dev.findRun cid run = some slot) (hr : s.dev.runs.get slot = some r) (on : side r = some g)
    (f : Device → Fin 32 → Run → Device) :
    s.on (unlessReset (Device.receive g m fun d => d.onMatched cid run side g (f d))) =
      .next (s.put (f (s.dev.heard g) slot r)) := by
  rw [on_received takes wf, onMatched_eq (d := s.dev.heard g) found hr on]

/-- R106: a message that no run expects on that degree matches none. -/
theorem matched_none {d : Device} {cid : Nat} {run : RunId} {side : Run → Option (Fin 4)} {g : Fin 4}
    (other : ∀ slot r, d.findRun cid run = some slot → d.runs.get slot = some r → side r ≠ some g) :
    d.matched cid run side g = none := by
  unfold Device.matched
  cases found : d.findRun cid run with
  | none => rfl
  | some slot =>
    cases hr : d.runs.get slot with
    | none => simp [hr]
    | some r => simp [hr, other slot r found hr]

/-- R104: the expiry of a wait that a run is in is what that run does with it. -/
theorem on_waited {s : State} {slot : Fin 32} {r : Run} {waits : Run → Bool} (live : s.dev.rst = false)
    (hr : s.dev.runs.get slot = some r) (w : waits r = true) (f : Device → Run → Device) :
    s.on (unlessReset (Device.onWaitIn slot waits f)) =
      .next (s.put (f { s.dev with now := max s.dev.now r.deadline } r)) := by
  rw [on_unlessReset live, onWaitIn_taken hr w]
  rfl

/-! ### Waits and phases (R104, R105) -/

theorem seconds_eq (n : Nat) : seconds n = 1000 * n := Nat.mul_comm n 1000

theorem outcomeWait_eq (d : Device) : d.outcomeWait = 1000 * d.timings.outcomeWait := seconds_eq _

theorem stopWait_eq (d : Device) (dwell : Nat) : d.stopWait dwell = dwell * 100 + 1000 * (2 * d.timings.armBase) := by
  rw [Device.stopWait, seconds_eq]

theorem reportWait_eq (d : Device) (k n : Nat) : d.reportWait k n = 1000 * (d.timings.reportBase * (n - 1 - k)) :=
  seconds_eq _

/-- R104: a run that enters a phase has the phase and the deadline of its wait. -/
theorem enter_eq {d : Device} {slot : Fin 32} {r : Run} (hr : d.runs.get slot = some r) (phase : Phase) (wait : Nat) :
    d.enter slot phase wait =
      { d with runs := d.runs.set slot (some { r with phase := phase, deadline := d.now + wait }) } := onRun_eq hr _

/-- R104: as `enter_eq`, for a run that enters the phase with a message sent. -/
theorem enter_sent {d : Device} {slot : Fin 32} {r : Run} (hr : d.runs.get slot = some r) (g : Option (Fin 4))
    (m : Message) (phase : Phase) (wait : Nat) : (d.sendOpt g m).enter slot phase wait = { d.sendOpt g m with
      runs := d.runs.set slot (some { r with phase := phase, deadline := d.now + wait }) } := by
  obtain ⟨links, ports, sent⟩ := sendOpt_eq d g m
  rw [sent]
  exact enter_eq (d := { d with links := links, ports := ports }) hr phase wait

theorem cidOf_eq {d : Device} {i : Fin 256} {c : Circuit} (hc : d.circuit i = some c) : d.cidOf i = c.cid := by
  simp [Device.cidOf, hc]

/-- R156: as `sendOpt_eq`, with the links named. -/
theorem sendOpt_ports (d : Device) (g : Option (Fin 4)) (m : Message) :
    ∃ ports, d.sendOpt g m = { d with links := (d.sendOpt g m).links, ports := ports } := by
  obtain ⟨links, ports, sent⟩ := sendOpt_eq d g m
  exact ⟨ports, by rw [sent]⟩

theorem sendOpt_cidOf (d : Device) (g : Option (Fin 4)) (m : Message) (i : Fin 256) :
    (d.sendOpt g m).cidOf i = d.cidOf i := by
  obtain ⟨links, ports, sent⟩ := sendOpt_eq d g m
  rw [sent]
  rfl

/-! ### An ANNOUNCE refused (R110) -/

/-- R148: a valid frame heard makes no difference to which older run an ANNOUNCE would free. -/
theorem heard_withoutRun (d : Device) (g : Fin 4) (i : Fin 256) :
    (d.heard g).withoutRun i = { d.withoutRun i with links := (d.heard g).links } := by
  have same : (d.heard g).runOf i = d.runOf i := rfl
  unfold Device.withoutRun
  rw [same]
  split
  · rfl
  next slot found =>
    obtain ⟨r, hr, -⟩ := runOf_run found
    rw [freeRun_eq (d := d.heard g) hr, freeRun_eq hr]
    rfl

/-- R110: the BUSY test, from the part with the circuit's older run freed. -/
theorem hasRoom_heard (d : Device) (g : Fin 4) (i : Fin 256) (x : Desc) : (d.heard g).hasRoom i x =
    ((d.withoutRun i).runs.firstFree.isSome && (d.withoutRun i).canListen x) := by
  rw [Device.hasRoom, heard_withoutRun]
  rfl

theorem announced_unknown {d : Device} {cid : Nat} (unknown : d.findCid cid = none) (g : Fin 4) (run : RunId)
    (kind : Kind) (hop n dwell : Nat) :
    d.announced g cid run kind hop n dwell = d.send g (.refuse cid run hop .unknown) := by
  simp only [Device.announced, unknown]

theorem announced_refused {d : Device} {g : Fin 4} {cid hop n dwell : Nat} {i : Fin 256} {c : Circuit}
    {reason : Reason} {at' : Nat} (found : d.findCid cid = some i) (hc : d.circuit i = some c)
    (fails : d.announceRefusal g i c hop n dwell = some (reason, at')) (run : RunId) (kind : Kind) :
    d.announced g cid run kind hop n dwell = d.send g (.refuse cid run at' reason) := by
  simp only [Device.announced, found, hc, fails]

section

variable {d : Device} {g : Fin 4} {i : Fin 256} {c : Circuit} {hop n dwell : Nat}

theorem announceRefusal_mismatch (misfit : c.fits g hop n dwell = false) :
    d.announceRefusal g i c hop n dwell = some (.mismatch, hop) := by
  simp [Device.announceRefusal, misfit]

theorem announceRefusal_held (fits : c.fits g hop n dwell = true) (held : c.service = .held) :
    d.announceRefusal g i c hop n dwell = some (.held, hop) := by
  simp [Device.announceRefusal, fits, held]

theorem announceRefusal_busy (fits : c.fits g hop n dwell = true) (unheld : c.service ≠ .held)
    (full : d.hasRoom i c.desc = false) : d.announceRefusal g i c hop n dwell = some (.busy, hop) := by
  simp [Device.announceRefusal, fits, unheld, full]

theorem announceRefusal_linkDown (fits : c.fits g hop n dwell = true) (unheld : c.service ≠ .held)
    (room : d.hasRoom i c.desc = true) (down : d.spanUp c.desc = false) :
    d.announceRefusal g i c hop n dwell = some (.linkDown, hop + 1) := by
  simp [Device.announceRefusal, fits, unheld, room, down]

end

theorem spanUp_of_down {d : Device} {x : Desc} {out : Fin 4} (transit : x.role = .transit)
    (egress : x.egress = .degree out) (down : (d.links.get out).state ≠ .up) : d.spanUp x = false := by
  simp [Device.spanUp, transit, egress, Place.degree?, down]

/-- Settles O38: each test by the `announceRefusal_` lemma that is named after its reason. -/
theorem announceIsRefusedInOrder : Obligations.AnnounceIsRefusedInOrder := by
  rintro s g cid run kind hop n dwell _ takes wf rfl _ refused rfl hrefused
  have answers : ∀ {at' reason}, (s.dev.heard g).announced g cid run kind hop n dwell =
      (s.dev.heard g).send g (.refuse cid run at' reason) →
      exec (.announce g cid run kind hop n dwell) s = .next (s.put (refused at' reason)) := fun refuse => by
    rw [exec_announce takes wf, refuse, hrefused]
  refine ⟨fun unknown => answers (announced_unknown (d := s.dev.heard g) unknown g run kind hop n dwell),
    fun i c found hc fits hfits => ?_⟩
  rw [← fits_iff] at hfits
  have refuses : ∀ {reason at'}, (s.dev.heard g).announceRefusal g i c hop n dwell = some (reason, at') →
      exec (.announce g cid run kind hop n dwell) s = .next (s.put (refused at' reason)) := fun fails =>
    answers (announced_refused (d := s.dev.heard g) found hc fails run kind)
  have room := hasRoom_heard s.dev g i c.desc
  refine ⟨fun misfit => refuses (announceRefusal_mismatch ?_), fun fit held =>
    refuses (announceRefusal_held (hfits.mp fit) held), fun fit unheld full =>
    refuses (announceRefusal_busy (hfits.mp fit) unheld ?_), fun fit unheld free listens out transit egress down =>
    refuses (announceRefusal_linkDown (hfits.mp fit) unheld ?_ (spanUp_of_down transit egress ?_))⟩
  · simpa using mt hfits.mpr misfit
  · rw [room]
    obtain none_free | deaf := full
    · rw [none_free]; rfl
    · rw [deaf, Bool.and_false]
  · rw [room, free, listens]; rfl
  · rwa [heard_state]

end Sys2Proof.Machine

/-! SUPPORT. ARMED: the run it moves, the injector it has driven, and the one good frame of a circuit id. -/

namespace Sys2Proof.Machine

/-! ### ARMED taken by a run (R114) -/

/-- R114: a transit that waits for ARMED passes it up and listens. -/
theorem takeArmed_transit {d : Device} {slot : Fin 32} {r : Run} (hr : d.runs.get slot = some r)
    (transit : r.role = .transit) (arming : r.phase = .arming) :
    d.takeArmed slot r = { d.sendOpt r.up (.armed (d.cidOf r.circuit) r.id) with
      runs := d.runs.set slot (some { r with phase := .listening, deadline := d.now + d.stopWait r.dwell }) } := by
  have taken : d.takeArmed slot r =
      (d.sendOpt r.up (.armed (d.cidOf r.circuit) r.id)).enter slot .listening (d.stopWait r.dwell) := by
    simp only [Device.takeArmed, transit, arming]
  rw [taken, enter_sent hr]

/-- R114: a head that waits for ARMED has its injector driven and injects. -/
theorem takeArmed_head {d : Device} {slot : Fin 32} {r : Run} {c : Circuit} (hr : d.runs.get slot = some r)
    (hc : d.circuit r.circuit = some c) (head : r.role = .head) (announcing : r.phase = .announcing) :
    d.takeArmed slot r = { d with
      runs := d.runs.set slot (some { r with phase := .injecting, deadline := d.now + r.dwell * 100 })
      injectors := (d.drive slot c).injectors } := by
  have taken : d.takeArmed slot r = (d.drive slot c).enter slot .injecting (r.dwell * 100) := by
    simp only [Device.takeArmed, head, announcing, hc]
  rw [taken, enter_eq (d := d.drive slot c) hr]
  rfl

theorem takeArmed_other {d : Device} {slot : Fin 32} {r : Run} (transit : ¬(r.role = .transit ∧ r.phase = .arming))
    (head : ¬(r.role = .head ∧ r.phase = .announcing)) : d.takeArmed slot r = d := by
  unfold Device.takeArmed
  split
  next role phase => exact absurd ⟨role, phase⟩ transit
  next role phase => exact absurd ⟨role, phase⟩ head
  next => rfl

/-- R40: a granted injector of the run drives on the circuit's ADD tap, and every other stays as it is. -/
theorem drive_injectors (d : Device) (slot : Fin 32) {c : Circuit} {tap : Fin 16}
    (ingress : c.desc.ingress = .tap tap) : (d.drive slot c).injectors = d.injectors.mapIdx fun _ j =>
      if j = .granted slot then .driving slot tap c.cid c.desc.channel (codeFrame c.cid) else j := by
  refine Table.ext_get fun q => ?_
  simp only [Device.drive, Table.get_mapIdx, ingress]
  cases d.injectors.get q with
  | free => rfl
  | granted run =>
    by_cases own : run = slot
    · simp [own]
    · simp [own]
  | driving => rfl

theorem exec_armed {s : State} {g : Fin 4} {cid : Nat} {run : RunId} {slot : Fin 32} {r : Run}
    (takes : s.dev.linkTakes g = true) (wf : (Message.armed cid run).wf = true)
    (found : s.dev.findRun cid run = some slot) (hr : s.dev.runs.get slot = some r) (down : r.down = some g) :
    exec (.armed g cid run) s = .next (s.put ((s.dev.heard g).takeArmed slot r)) :=
  on_matched takes wf found hr down Device.takeArmed

/-! ### Code frames (R188) -/

theorem codeFrameId_append (a : BitVec 24) (b : BitVec 6) : codeFrameId (a ++ b) = a := by
  refine BitVec.eq_of_getLsbD_eq fun i hi => ?_
  have above : (a ++ b).getLsbD (6 + i) = _ := BitVec.getLsbD_append
  simp [codeFrameId, above, hi]

theorem setWidth_append_check (a : BitVec 24) (b : BitVec 6) : (a ++ b).setWidth 6 = b := by
  refine BitVec.eq_of_getLsbD_eq fun i hi => ?_
  have below : (a ++ b).getLsbD i = _ := BitVec.getLsbD_append
  simp [below, hi]

/-- R188: a code frame is its circuit id and then its check. -/
theorem codeFrame_split (w : BitVec 30) : codeFrameId w ++ w.setWidth 6 = w := by
  refine BitVec.eq_of_getLsbD_eq fun i hi => ?_
  simp only [codeFrameId, BitVec.getLsbD_append, BitVec.getLsbD_setWidth, BitVec.getLsbD_ushiftRight]
  by_cases low : i < 6
  · simp [low]
  · simp [low, show i - 6 < 24 by omega, show 6 + (i - 6) = i by omega]

/-- R188: the good frame that carries a circuit id is the one the injector forms from it, and no other. -/
theorem codeFrame_iff {cid : Nat} (fits : cid < 2 ^ 24) (w : BitVec 30) :
    codeFrameGood w = true ∧ (codeFrameId w).toNat = cid ↔ w = codeFrame cid := by
  rw [codeFrameGood, beq_iff_eq]
  constructor
  · rintro ⟨good, rfl⟩
    rw [codeFrame, BitVec.ofNat_toNat, BitVec.setWidth_eq, good, codeFrame_split]
  · rintro rfl
    rw [codeFrame, codeFrameId_append, setWidth_append_check, BitVec.toNat_ofNat, Nat.mod_eq_of_lt fits]
    exact ⟨rfl, rfl⟩

/-- Settles O40: what each run does with ARMED by the `takeArmed_` lemmas, its one good frame by `codeFrame_iff`. -/
theorem armedMovesTheRun : Obligations.ArmedMovesTheRun := by
  rintro s g cid run _ slot r takes wf rfl found hr down
  obtain ⟨rfl, rfl⟩ := findRun_ids found hr
  rw [exec_armed takes wf found hr down]
  refine ⟨fun transit arming => ?_, fun c tap head announcing hc ingress => ?_, codeFrame_iff ?_,
    fun transit head => ?_⟩
  · rw [takeArmed_transit (d := s.dev.heard g) hr transit arming, stopWait_eq]
    rfl
  · rw [takeArmed_head (d := s.dev.heard g) hr hc head announcing, drive_injectors _ _ ingress, cidOf_eq hc]
    rfl
  · simp only [Message.wf, cidOk, Bool.and_eq_true, decide_eq_true_eq] at wf
    obtain ⟨⟨-, fits⟩, -⟩ := wf
    exact fits
  · rw [takeArmed_other transit head]

end Sys2Proof.Machine

/-! SUPPORT. The close of a listen: the hop result and the candidate it leaves, STOP, and the end of a dwell. -/

namespace Sys2Proof.Machine

/-! ### A listen closed and a REPORT sent (R34, R117, R132, R136) -/

/-- R34, R132, R136: the close of a listen touches the run's slots, its record's candidate and the run alone. -/
theorem closeListen_eq {d : Device} {slot : Fin 32} {r : Run} {c : Circuit} (hr : d.runs.get slot = some r)
    (hc : d.circuit r.circuit = some c) : d.closeListen slot = { d with
      taps := (d.releaseSlots slot).taps
      runs := d.runs.set slot (some { r with listen := .closed, own := some (d.formHop slot r.kind c) })
      circuits := d.circuits.set r.circuit (some { c with
        candidate := captured d.now d.clock.time r.id r.kind (d.formHop slot r.kind c) c.candidate }) } := by
  simp only [Device.closeListen, hr, hc]
  rw [onRun_eq (d := d.releaseSlots slot) hr, onCircuit_eq (c := c) (by exact hc)]
  rfl

/-- R117, R119, R121: a REPORT sent upstream, where `stored` is the run as it stands. -/
theorem report_eq {d : Device} {slot : Fin 32} {stored : Run} (hr : d.runs.get slot = some stored) (r : Run)
    (truncated : Bool) (hops : List HopResult) : d.report slot r truncated hops =
      { d.sendOpt r.up (.report (d.cidOf r.circuit) r.id truncated hops) with
        runs := d.runs.set slot (some { stored with
          phase := .awaitingOutcome, deadline := d.now + 1000 * d.timings.outcomeWait }) } := by
  rw [Device.report, enter_sent hr, outcomeWait_eq]

theorem ownList_eq {d : Device} {slot : Fin 32} {r : Run} {own : HopResult} (hr : d.runs.get slot = some r)
    (h : r.own = some own) : d.ownList slot = [own] := by
  simp [Device.ownList, hr, h]

/-- R136: the candidate captured, as the fields of the hop result have it. -/
theorem captured_eq (now : Nat) (time : WallTime) (run : RunId) (kind : Kind) (hop : HopResult)
    (old : Option Candidate) : captured now time run kind hop old =
      if kind = .baseline ∧ hop.verdict = .throughNoBaseline then
        some ⟨hop.inLevel.getD 0, hop.outLevel.getD 0, time, now, run⟩ else old := rfl

/-! ### STOP (R117) -/

theorem transit_or_tail {role : NodeRole} (h : role ≠ .head) : role = .transit ∨ role = .tail := by
  cases role with
  | head => exact absurd rfl h
  | transit => exact .inl rfl
  | tail => exact .inr rfl

section

variable {d : Device} {slot : Fin 32} {r : Run} {c : Circuit}

/-- R117: a transit passes STOP down, closes its listen and waits for the REPORT. -/
theorem takeStop_transit (hr : d.runs.get slot = some r) (hc : d.circuit r.circuit = some c)
    (transit : r.role = .transit) (listening : r.phase = .listening) : ∃ ports, d.takeStop slot r = { d with
      links := (d.sendOpt r.down (.stop c.cid r.id)).links
      ports := ports
      taps := (d.releaseSlots slot).taps
      runs := d.runs.set slot (some { r with
        phase := .reporting, deadline := d.now + 1000 * (d.timings.reportBase * (r.n - 1 - r.k))
        listen := .closed, own := some (d.formHop slot r.kind c) })
      circuits := d.circuits.set r.circuit (some { c with
        candidate := captured d.now d.clock.time r.id r.kind (d.formHop slot r.kind c) c.candidate }) } := by
  have taken : d.takeStop slot r = ((d.sendOpt r.down (.stop c.cid r.id)).closeListen slot).enter slot .reporting
      (((d.sendOpt r.down (.stop c.cid r.id)).closeListen slot).reportWait r.k r.n) := by
    simp only [Device.takeStop, transit, listening, cidOf_eq hc]
  obtain ⟨ports, sent⟩ := sendOpt_ports d r.down (.stop c.cid r.id)
  generalize (d.sendOpt r.down (.stop c.cid r.id)).links = links at sent ⊢
  refine ⟨ports, ?_⟩
  rw [taken, sent, closeListen_eq (d := { d with links := links, ports := ports }) hr hc, reportWait_eq,
    enter_eq (Table.get_set_self _ _ _), Table.set_set]
  rfl

/-- R117: a tail closes its listen, reports its one result and waits for the OUTCOME. -/
theorem takeStop_tail (hr : d.runs.get slot = some r) (hc : d.circuit r.circuit = some c) (tail : r.role = .tail)
    (listening : r.phase = .listening) : ∃ ports, d.takeStop slot r = { d with
      links := (d.sendOpt r.up (.report c.cid r.id false [d.formHop slot r.kind c])).links
      ports := ports
      taps := (d.releaseSlots slot).taps
      runs := d.runs.set slot (some { r with
        phase := .awaitingOutcome, deadline := d.now + 1000 * d.timings.outcomeWait
        listen := .closed, own := some (d.formHop slot r.kind c) })
      circuits := d.circuits.set r.circuit (some { c with
        candidate := captured d.now d.clock.time r.id r.kind (d.formHop slot r.kind c) c.candidate }) } := by
  have taken : d.takeStop slot r =
      (d.closeListen slot).report slot r false ((d.closeListen slot).ownList slot) := by
    simp only [Device.takeStop, tail, listening]
  have closed := closeListen_eq hr hc
  have run : (d.closeListen slot).runs.get slot =
      some { r with listen := .closed, own := some (d.formHop slot r.kind c) } := by
    rw [closed]; exact Table.get_set_self _ _ _
  have cid : (d.closeListen slot).cidOf r.circuit = c.cid := by
    rw [closed]; simp [Device.cidOf, Device.circuit]
  obtain ⟨ports, sent⟩ := sendOpt_ports (d.closeListen slot) r.up (.report c.cid r.id false [d.formHop slot r.kind c])
  rw [sendOpt_links (e := d) (by rw [closed])] at sent
  refine ⟨ports, ?_⟩
  rw [taken, ownList_eq run rfl, report_eq run, cid, sent, closed, Table.set_set]
  rfl

end

theorem exec_stop {s : State} {g : Fin 4} {cid : Nat} {run : RunId} {slot : Fin 32} {r : Run}
    (takes : s.dev.linkTakes g = true) (wf : (Message.stop cid run).wf = true)
    (found : s.dev.findRun cid run = some slot) (hr : s.dev.runs.get slot = some r) (up : r.up = some g) :
    exec (.stop g cid run) s = .next (s.put (if r.phase = .listening then
      Device.arbitrate (s.dev.heard g) false ((s.dev.heard g).takeStop slot r) else s.dev.heard g)) :=
  on_matched takes wf found hr up fun d slot r =>
    if r.phase = .listening then Device.arbitrate d false (d.takeStop slot r) else d

/-! ### The end of the dwell (R41, R116) -/

/-- R41, R116: the end of the dwell frees the head's injector, sends STOP down, closes the listen and collects. -/
theorem dwellEnds_eq {d : Device} {slot : Fin 32} {r : Run} {c : Circuit} (hr : d.runs.get slot = some r)
    (hc : d.circuit r.circuit = some c) : ∃ ports, d.dwellEnds slot r = { d with
      injectors := (d.freeInjectorOf slot).injectors
      links := (d.sendOpt r.down (.stop c.cid r.id)).links
      ports := ports
      taps := (d.releaseSlots slot).taps
      runs := d.runs.set slot (some { r with
        phase := .collecting, deadline := d.now + 1000 * (d.timings.reportBase * (r.n - 1))
        listen := .closed, own := some (d.formHop slot r.kind c) })
      circuits := d.circuits.set r.circuit (some { c with
        candidate := captured d.now d.clock.time r.id r.kind (d.formHop slot r.kind c) c.candidate }) } := by
  obtain ⟨ports, sent⟩ := sendOpt_ports (d.freeInjectorOf slot) r.down (.stop c.cid r.id)
  rw [sendOpt_links (d := d.freeInjectorOf slot) (e := d) rfl] at sent
  generalize (d.sendOpt r.down (.stop c.cid r.id)).links = links at sent ⊢
  refine ⟨ports, ?_⟩
  unfold Device.dwellEnds
  dsimp only
  rw [cidOf_eq hc, sent,
    closeListen_eq (d := { d.freeInjectorOf slot with links := links, ports := ports }) hr hc, reportWait_eq,
    enter_eq (Table.get_set_self _ _ _), Table.set_set]
  rfl

theorem exec_dwell {s : State} {slot : Fin 32} {r : Run} (live : s.dev.rst = false)
    (hr : s.dev.runs.get slot = some r) (injecting : r.phase = .injecting) {b : Device}
    (hb : b = { s.dev with now := max s.dev.now r.deadline }) :
    exec (.dwell slot) s = .next (s.put (Device.arbitrate b false (b.dwellEnds slot r))) := by
  subst hb
  exact on_waited (waits := fun r => r.phase == .injecting) live hr (beq_iff_eq.mpr injecting) fun d r =>
    Device.arbitrate d false (d.dwellEnds slot r)

/-- Settles O41: STOP by `takeStop_transit` and `takeStop_tail`, the end of the dwell by `dwellEnds_eq`. -/
theorem listenClosesAtStopAndAtTheEndOfTheDwell : Obligations.ListenClosesAtStopAndAtTheEndOfTheDwell := by
  refine ⟨?stop, ?dwell⟩
  case stop =>
    rintro s g cid run _ slot r c _ takes wf rfl found hr up hc rfl
    obtain ⟨rfl, cid_eq⟩ := findRun_ids found hr
    obtain rfl : c.cid = cid := (cidOf_eq hc).symm.trans cid_eq
    rw [exec_stop takes wf found hr up]
    refine ⟨fun other => by rw [if_neg other], fun listening participates => ?_⟩
    rw [if_pos listening]
    obtain transit | tail := transit_or_tail participates
    · obtain ⟨ports, taken⟩ := takeStop_transit (d := s.dev.heard g) hr hc transit listening
      rw [taken]
      refine ⟨_, rfl, rfl, ?_, fun _ => ⟨rfl, Table.get_set_self _ _ _⟩, fun tail => ?_⟩
      · rintro b rfl
        exact Table.get_set_self _ _ _
      · exact absurd (transit.symm.trans tail) nofun
    · obtain ⟨ports, taken⟩ := takeStop_tail (d := s.dev.heard g) hr hc tail listening
      rw [taken]
      refine ⟨_, rfl, rfl, ?_, fun transit => ?_, fun _ => ⟨by rw [up]; rfl, Table.get_set_self _ _ _⟩⟩
      · rintro b rfl
        exact Table.get_set_self _ _ _
      · exact absurd (tail.symm.trans transit) nofun
  case dwell =>
    rintro s slot r c b _ live hr injecting hc hb rfl
    rw [exec_dwell live hr injecting hb]
    obtain ⟨ports, ended⟩ := dwellEnds_eq (d := b) (slot := slot) (r := r) (c := c) (by rwa [hb]) (by rw [hb]; exact hc)
    rw [ended]
    subst hb
    refine ⟨_, rfl, freeInjectorOf_injector _ _, rfl, rfl, Table.get_set_self _ _ _, ?_⟩
    rintro k rfl
    exact Table.get_set_self _ _ _

end Sys2Proof.Machine

/-! SUPPORT. REPORTs: when one is well formed for its receiver, what a transit and a head make of it, and the REPORT and
ARMED waits that expire. -/

namespace Sys2Proof.Machine

/-! ### A REPORT well formed for its receiver (R119) -/

theorem inOrder_iff {k : Nat} {hops : List HopResult} :
    inOrder k hops = true ↔ ∀ m x, hops[m]? = some x → x.hop = k + m := by
  induction hops generalizing k with
  | nil => simp [inOrder]
  | cons h rest ih =>
    rw [inOrder, Bool.and_eq_true, beq_iff_eq, ih]
    constructor
    · rintro ⟨first, after⟩ m x hx
      cases m with
      | zero => obtain rfl : h = x := by simpa using hx
                exact first
      | succ m => rw [after m x (by simpa using hx)]; omega
    · intro all
      refine ⟨all 0 h rfl, fun m x hx => ?_⟩
      rw [all (m + 1) x (by simpa using hx)]
      omega

/-- R119: the test of a REPORT at a receiver that stands on the path. -/
theorem reportFits_iff {k n : Nat} (onPath : k < n) (hops : List HopResult) : reportFits k n hops = true ↔
    hops ≠ [] ∧ (∀ m x, hops[m]? = some x → x.hop = k + 1 + m) ∧ k + hops.length ≤ n - 1 := by
  have last : k + hops.length + 1 ≤ n ↔ k + hops.length ≤ n - 1 := by omega
  simp [reportFits, inOrder_iff, and_assoc, last]

/-! ### A REPORT taken (R119, R120) -/

theorem exec_report {s : State} {g : Fin 4} {cid : Nat} {run : RunId} {truncated : Bool} {hops : List HopResult}
    (takes : s.dev.linkTakes g = true) (wf : (Message.report cid run truncated hops).wf = true) :
    exec (.report g cid run truncated hops) s =
      .next (s.put ((s.dev.heard g).reportArrives g cid run truncated hops)) := on_received takes wf _

section

variable {d : Device} {g : Fin 4} {cid : Nat} {run : RunId} {slot : Fin 32} {r : Run} {own : HopResult}
  {hops : List HopResult} (found : d.findRun cid run = some slot) (hr : d.runs.get slot = some r)
  (down : r.down = some g)

include found hr down

/-- R119: a transit puts its own result before those of the REPORT and passes the flag on as it came. -/
theorem reportArrives_transit (formed : r.own = some own) (transit : r.role = .transit)
    (reporting : r.phase = .reporting) (fits : reportFits r.k r.n hops = true) (truncated : Bool) :
    d.reportArrives g cid run truncated hops =
      { d.sendOpt r.up (.report (d.cidOf r.circuit) r.id truncated (own :: hops)) with
        runs := d.runs.set slot (some { r with
          phase := .awaitingOutcome, deadline := d.now + 1000 * d.timings.outcomeWait }) } := by
  have taken : d.reportArrives g cid run truncated hops = d.report slot r truncated (d.ownList slot ++ hops) := by
    rw [Device.reportArrives, onMatched_eq found hr down]
    simp [fits, transit, reporting]
  rw [taken, ownList_eq hr formed, report_eq hr]
  rfl

/-- R120: a head ends its run on its own result and those of the REPORT. -/
theorem reportArrives_head (formed : r.own = some own) (head : r.role = .head) (collecting : r.phase = .collecting)
    (fits : reportFits r.k r.n hops = true) (truncated : Bool) : d.reportArrives g cid run truncated hops =
      Device.arbitrate d false (d.endOnList slot r ⟨own :: hops, truncated⟩) := by
  rw [Device.reportArrives, onMatched_eq found hr down, ownList_eq hr formed]
  simp [fits, head, collecting]

theorem reportArrives_misfit (misfit : reportFits r.k r.n hops = false) (truncated : Bool) :
    d.reportArrives g cid run truncated hops = d := by
  rw [Device.reportArrives, onMatched_eq found hr down]
  simp [misfit]

theorem reportArrives_other (transit : ¬(r.role = .transit ∧ r.phase = .reporting))
    (head : ¬(r.role = .head ∧ r.phase = .collecting)) (truncated : Bool) (hops : List HopResult) :
    d.reportArrives g cid run truncated hops = d := by
  rw [Device.reportArrives, onMatched_eq found hr down]
  split
  next => rfl
  next =>
  split
  next role phase => exact absurd ⟨role, phase⟩ transit
  next role phase => exact absurd ⟨role, phase⟩ head
  next => rfl

end

/-- R120: the head's hop list set, and the run ended with what the list says. -/
theorem endOnList_eq {d : Device} {slot : Fin 32} {r : Run} (hr : d.runs.get slot = some r) (l : HopList) :
    d.endOnList slot r l =
      Device.endHead { d with runs := d.runs.set slot (some { r with hopList := l }) } slot (classify l r.n) false := by
  rw [Device.endOnList, Device.setHopList, onRun_eq hr]

/-! ### The waits that expire (R115, R121) -/

section

variable {s : State} {slot : Fin 32} {r : Run} {b : Device}

theorem exec_reportWait (live : s.dev.rst = false) (hr : s.dev.runs.get slot = some r)
    (waits : r.phase = .reporting ∨ r.phase = .collecting)
    (hb : b = { s.dev with now := max s.dev.now r.deadline }) :
    exec (.reportWait slot) s = .next (s.put (b.reportExpires slot r)) := by
  subst hb
  exact on_waited (waits := Run.awaitsReport) live hr (by simpa [Run.awaitsReport] using waits) fun d r =>
    d.reportExpires slot r

theorem exec_armedWait (live : s.dev.rst = false) (hr : s.dev.runs.get slot = some r)
    (waits : r.phase = .arming ∨ r.phase = .announcing)
    (hb : b = { s.dev with now := max s.dev.now r.deadline }) :
    exec (.armedWait slot) s = .next (s.put (Device.arbitrate b false (b.armedExpires slot r))) := by
  subst hb
  exact on_waited (waits := Run.awaitsArmed) live hr (by simpa [Run.awaitsArmed] using waits) fun d r =>
    Device.arbitrate d false (d.armedExpires slot r)

end

/-- Settles O42: a REPORT by the `reportArrives_` lemmas, the wait by `report_eq`. -/
theorem transitReports : Obligations.TransitReports := by
  rintro s g cid run truncated hops _ slot r own found hr formed
  obtain ⟨rfl, rfl⟩ := findRun_ids found hr
  refine ⟨?message, ?wait⟩
  case message =>
    rintro takes wf rfl down fits hfits onPath
    rw [← reportFits_iff onPath] at hfits
    rw [exec_report takes wf]
    refine ⟨fun transit reporting fit => ?_, fun discarded => ?_⟩
    · rw [reportArrives_transit (d := s.dev.heard g) found hr down formed transit reporting (hfits.mp fit)]
      rfl
    · obtain misfit | other := discarded
      · rw [reportArrives_misfit (d := s.dev.heard g) found hr down (by simpa using mt hfits.mpr misfit)]
      · rw [reportArrives_other (d := s.dev.heard g) found hr down (other ∘ .inl) (other ∘ .inr)]
  case wait =>
    rintro live transit reporting d rfl
    rw [exec_reportWait live hr (.inl reporting) rfl, Device.reportExpires, if_neg (by rw [transit]; exact nofun),
      ownList_eq (by exact hr) formed, report_eq (by exact hr)]
    rfl

/-- Settles O43: a REPORT by `reportArrives_head`, what the head ends on by `endOnList_eq`, and an ARMED wait by the run's
role. -/
theorem runsEndOnReportsAndWaits : Obligations.RunsEndOnReportsAndWaits := by
  rintro s cid run slot r d live found hr hd
  obtain ⟨rfl, cid_eq⟩ := findRun_ids found hr
  have stands : d.runs.get slot = some r := by rwa [hd]
  refine ⟨fun own head collecting formed done hdone => ⟨fun g truncated hops takes wf down fits => ?_, ?_⟩,
    fun head announcing => ?_, fun transit arming => ?_⟩
  · rw [exec_report takes wf, reportArrives_head (d := s.dev.heard g) found hr down formed head collecting fits,
      endOnList_eq (d := s.dev.heard g) hr, hdone]
    rfl
  · rw [exec_reportWait live hr (.inr collecting) hd, Device.reportExpires, if_pos head, ownList_eq stands formed,
      endOnList_eq stands, hdone, hd]
  · rw [exec_armedWait live hr (.inr announcing) hd, Device.armedExpires, if_pos head]
  · have refused : (d.sendOpt r.up (.refuse cid r.id (r.k + 1) .silent)).cidOf r.circuit = cid := by
      rw [sendOpt_cidOf, ← cid_eq, hd]
      rfl
    rw [exec_armedWait live hr (.inl arming) hd, Device.armedExpires, if_neg (by rw [transit]; exact nofun),
      show d.cidOf r.circuit = cid by rw [← cid_eq, hd]; rfl, Device.cancelDown, refused]

end Sys2Proof.Machine

/-! SUPPORT. REFUSE: the head run it ends, and the transit that passes it up. -/

namespace Sys2Proof.Machine

/-! ### REFUSE (R122, R141) -/

/-- R141: HELD and BUSY put a run off, any other reason ends it INCOMPLETE. -/
theorem refusalFinding_eq (hop : Nat) (reason : Reason) : refusalFinding hop reason =
    ⟨if reason = .held ∨ reason = .busy then .deferred else .incomplete, some hop, some (.peer reason)⟩ := by
  cases reason <;> rfl

theorem exec_refuse {s : State} {g : Fin 4} {cid : Nat} {run : RunId} {hop : Nat} {reason : Reason} {slot : Fin 32}
    {r : Run} (takes : s.dev.linkTakes g = true) (wf : (Message.refuse cid run hop reason).wf = true)
    (found : s.dev.findRun cid run = some slot) (hr : s.dev.runs.get slot = some r) (down : r.down = some g) :
    exec (.refuse g cid run hop reason) s = .next (s.put
      (Device.arbitrate (s.dev.heard g) false ((s.dev.heard g).takeRefuse slot r hop reason))) :=
  on_matched takes wf found hr down fun d slot r => Device.arbitrate d false (d.takeRefuse slot r hop reason)

section

variable {d : Device} {slot : Fin 32} {r : Run}

theorem takeRefuse_head (head : r.role = .head) (d : Device) (slot : Fin 32) (hop : Nat) (reason : Reason) :
    d.takeRefuse slot r hop reason = d.endHead slot (refusalFinding hop reason) true := by
  simp only [Device.takeRefuse, head]

theorem takeRefuse_awaits (transit : r.role = .transit) (awaits : r.phase = .awaitingOutcome) (d : Device)
    (slot : Fin 32) (hop : Nat) (reason : Reason) : d.takeRefuse slot r hop reason =
      d.sendOpt r.up (.refuse (d.cidOf r.circuit) r.id hop reason) := by
  simp only [Device.takeRefuse, transit, awaits, if_true]

/-- R122: a transit that still has a listen or a REPORT to come gives it up and waits for the OUTCOME. -/
theorem takeRefuse_transit (hr : d.runs.get slot = some r) (transit : r.role = .transit)
    (other : r.phase ≠ .awaitingOutcome) (hop : Nat) (reason : Reason) :
    ∃ ports, d.takeRefuse slot r hop reason = { d with
      links := (d.sendOpt r.up (.refuse (d.cidOf r.circuit) r.id hop reason)).links
      ports := ports
      runs := d.runs.set slot (some { r with
        phase := .awaitingOutcome, deadline := d.now + 1000 * d.timings.outcomeWait
        listen := if r.listen = .opened then .none else r.listen })
      taps := (if r.listen = .opened then d.releaseSlots slot else d).taps } := by
  obtain ⟨ports, sent⟩ := sendOpt_ports d r.up (.refuse (d.cidOf r.circuit) r.id hop reason)
  have taken : d.takeRefuse slot r hop reason =
      ((d.sendOpt r.up (.refuse (d.cidOf r.circuit) r.id hop reason)).giveUpListen slot).enter slot .awaitingOutcome
        (d.sendOpt r.up (.refuse (d.cidOf r.circuit) r.id hop reason)).outcomeWait := by
    simp only [Device.takeRefuse, transit, if_neg other]
  generalize (d.sendOpt r.up (.refuse (d.cidOf r.circuit) r.id hop reason)).links = links at sent ⊢
  refine ⟨ports, ?_⟩
  rw [taken, sent, outcomeWait_eq, giveUpListen_eq (d := { d with links := links, ports := ports }) hr,
    enter_eq (Table.get_set_self _ _ _), Table.set_set]
  split
  · rfl
  · rfl

end

/-- Settles O45: a head by `takeRefuse_head`, a transit by `takeRefuse_awaits` and `takeRefuse_transit`. -/
theorem refuseEndsOrIsPassedUp : Obligations.RefuseEndsOrIsPassedUp := by
  rintro s g cid run hop reason _ slot r _ rfl takes wf rfl found hr down
  obtain ⟨rfl, rfl⟩ := findRun_ids found hr
  rw [exec_refuse takes wf found hr down]
  refine ⟨fun head cls hcls => ?_, fun transit awaits => ?_, fun transit other => ?_⟩
  · rw [takeRefuse_head head, refusalFinding_eq, hcls]
  · rw [takeRefuse_awaits transit awaits]
    rfl
  · obtain ⟨ports, taken⟩ := takeRefuse_transit (d := s.dev.heard g) hr transit other hop reason
    rw [taken]
    refine ⟨_, rfl, rfl, Table.get_set_self _ _ _, ?_⟩
    split
    · rfl
    · rfl

end Sys2Proof.Machine

/-! SUPPORT. REQUEST, taken or passed on by a record, and the request timer. -/

namespace Sys2Proof.Machine

/-! ### REQUEST (R91, R126) -/

theorem requestClass_eq (kind : Kind) : requestClass kind = if kind = .verify then .high else .normal := by
  cases kind <;> rfl

theorem exec_request {s : State} {g : Fin 4} {cid : Nat} {kind : Kind} (takes : s.dev.linkTakes g = true)
    (wf : (Message.request cid kind).wf = true) :
    exec (.request g cid kind) s = .next (s.put ((s.dev.heard g).requestArrives g cid kind)) := on_received takes wf _

theorem requestArrives_unknown {d : Device} {cid : Nat} (unknown : d.findCid cid = none) (g : Fin 4) (kind : Kind) :
    d.requestArrives g cid kind = d := by
  simp only [Device.requestArrives, unknown]

section

variable {d : Device} {g : Fin 4} {cid : Nat} {i : Fin 256} {c : Circuit}

theorem requestArrives_found (found : d.findCid cid = some i) (hc : d.circuit i = some c) (kind : Kind) :
    d.requestArrives g cid kind = if c.desc.egress = .degree g then d.takeRequest i c kind else d := by
  simp only [Device.requestArrives, found, hc]

theorem takeRequest_head (head : c.desc.role = .head) (d : Device) (i : Fin 256) (kind : Kind) :
    d.takeRequest i c kind = Device.arbitrate d false (d.enqueue i kind (requestClass kind)) := by
  simp only [Device.takeRequest, head]

theorem takeRequest_transit (transit : c.desc.role = .transit) (d : Device) (i : Fin 256) (kind : Kind) :
    d.takeRequest i c kind = d.sendOpt c.upstream (.request c.cid kind) := by
  simp only [Device.takeRequest, transit]

theorem takeRequest_tail (tail : c.desc.role = .tail) (d : Device) (i : Fin 256) (kind : Kind) :
    d.takeRequest i c kind = d := by
  simp only [Device.takeRequest, tail]

/-! ### The request timer (R75) -/

/-- R75: a REQUEST that is sent again, with one more attempt and the timer started again. -/
theorem requestExpires_again (hc : d.circuit i = some c) (tries : c.attempts < 3) :
    d.requestExpires i c = { d.sendOpt c.upstream (.request c.cid .verify) with
      circuits := d.circuits.set i (some { c with
        attempts := c.attempts + 1, requestDeadline := some (d.now + 1000 * d.timings.requestInterval) }) } := by
  obtain ⟨links, ports, sent⟩ := sendOpt_eq d c.upstream (.request c.cid .verify)
  rw [Device.requestExpires, if_pos tries, sent, onCircuit_eq (c := c) (by exact hc), Circuit.startTimer,
    Device.requestInterval, seconds_eq]

/-- R75: the third attempt unanswered faults the record. -/
theorem requestExpires_last (hc : d.circuit i = some c) (last : c.attempts = 3) (due : c.service = .due) :
    d.requestExpires i c = (Device.attendCircuit { d with circuits := d.circuits.set i (some { c with
      attempts := 0, requestDeadline := none, retained := false, service := .faulted .headSilent }) } c.owner
        i).judgeStaged i := by
  have faulted := circuit_set_self d i (some c.headSilent)
  rw [Device.requestExpires, if_neg (by omega), onCircuit_eq hc,
    attendChange_moved faulted (by rw [due]; exact nofun)]
  rfl

theorem exec_requestTimer {s : State} {deadline : Nat} {b : Device} (live : s.dev.rst = false)
    (hc : s.dev.circuit i = some c) (runs : c.requestDeadline = some deadline)
    (hb : b = { s.dev with now := max s.dev.now deadline }) :
    exec (.requestTimer i) s = .next (s.put (b.requestExpires i c)) := by
  refine (on_unlessReset live (Device.requestTimer i)).trans ?_
  simp only [Device.requestTimer, hc, runs, Device.onExpiry, hb]
  rfl

end

/-- Settles O48: a REQUEST by the record's role, the timer by `requestExpires_again` and `requestExpires_last`. -/
theorem requestsReachTheHeadOrGoSilent : Obligations.RequestsReachTheHeadOrGoSilent := by
  refine ⟨fun s g cid kind takes wf unknown => ?unknown, fun s i c hc => ⟨?known, ?timer⟩⟩
  case unknown => rw [exec_request takes wf, requestArrives_unknown (d := s.dev.heard g) unknown]
  case known =>
    rintro g kind _ takes wf rfl found
    rw [exec_request takes wf, requestArrives_found (d := s.dev.heard g) found hc]
    refine ⟨fun egress transit => ?_, fun egress head => ?_, fun discarded => ?_⟩
    · rw [if_pos egress, takeRequest_transit transit]
      rfl
    · rw [if_pos egress, takeRequest_head head, requestClass_eq]
    · split
      next egress =>
        rw [takeRequest_tail (discarded.resolve_left (not_not_intro egress))]
      next => rfl
  case timer =>
    intro live deadline b runs hb
    rw [exec_requestTimer live hc runs hb]
    subst hb
    refine ⟨fun tries => ?_, fun last due => ?_⟩
    · rw [requestExpires_again (by exact hc) tries]
      rfl
    · rw [requestExpires_last (by exact hc) last due]

end Sys2Proof.Machine

/-! SUPPORT. The loss of a link: the runs that use it, and what each does by its phase. -/

namespace Sys2Proof.Machine

/-! ### The loss of a link (R127, R128, R158) -/

/-- The indices that meet a test are one index alone, where no other does. -/
theorem indices_one {α : Type} {n : Nat} {t : Table α n} {p : α → Bool} {i : Fin n} (here : p (t.get i) = true)
    (alone : ∀ j, j ≠ i → p (t.get j) = false) : t.indices p = [i] := by
  have only : ∀ j ∈ List.finRange n, p (t.get j) = (j == i) := fun j _ => by
    by_cases same : j = i
    · rw [same, here, beq_self_eq_true]
    · rw [alone j same, beq_false_of_ne same]
  rw [Table.indices, List.filter_congr only, List.filter_beq,
    List.count_eq_one_of_mem (List.nodup_finRange n) (List.mem_finRange i), List.replicate_one]

theorem usesDegree_iff {g : Fin 4} {r : Run} : r.usesDegree g = true ↔ r.up = some g ∨ r.down = some g := by
  simp [Run.usesDegree]

section

variable {d : Device} {g : Fin 4} {slot : Fin 32} {r : Run}

theorem linkLost_unused (unused : ∀ q x, d.runs.get q = some x → x.up ≠ some g ∧ x.down ≠ some g) :
    d.linkLost g = Device.arbitrate d false d := by
  have none_affected : d.affected g = [] := by
    have listed : (d.runs.indices fun r => r.any (Run.usesDegree g)) = [] := by
      rw [Table.indices, List.filter_eq_nil_iff]
      intro q _ uses
      obtain ⟨x, hx, used⟩ := (Option.any_eq_true ..).mp uses
      obtain ⟨up, down⟩ := unused q x hx
      exact (usesDegree_iff.mp used).elim up down
    rw [Device.affected, listed]
    rfl
  rw [Device.linkLost, none_affected]
  rfl

/-- R127, R128: where one run alone uses the degree, the loss is what that run does. -/
theorem linkLost_one (hr : d.runs.get slot = some r) (uses : r.up = some g ∨ r.down = some g)
    (others : ∀ q x, d.runs.get q = some x → q ≠ slot → x.up ≠ some g ∧ x.down ≠ some g) : d.linkLost g =
      Device.arbitrate d false (if r.up = some g then d.cancelDown slot r else d.loseDown slot r) := by
  have one_affected : d.affected g = [slot] := by
    have listed : (d.runs.indices fun r => r.any (Run.usesDegree g)) = [slot] := by
      refine indices_one (by rw [hr]; exact usesDegree_iff.mpr uses) fun q other => ?_
      cases hx : d.runs.get q with
      | none => rfl
      | some x =>
        obtain ⟨up, down⟩ := others q x hx other
        exact Bool.eq_false_iff.mpr fun used => (usesDegree_iff.mp used).elim up down
    rw [Device.affected, listed]
    rfl
  have acts : d.loseLink g slot = if r.up = some g then d.cancelDown slot r else d.loseDown slot r := by
    simp only [Device.loseLink, hr]
    by_cases up : r.up = some g
    · rw [if_pos up, if_pos up]
    · rw [if_neg up, if_neg up, if_pos (uses.resolve_left up)]
  rw [Device.linkLost, one_affected, List.foldl_cons, List.foldl_nil, acts]

theorem cancelDown_eq (slot : Fin 32) {c : Circuit} (hc : d.circuit r.circuit = some c) :
    d.cancelDown slot r = (d.sendOpt r.down (.cancel c.cid r.id)).dropRun slot := by
  rw [Device.cancelDown, cidOf_eq hc]

theorem loseDown_refuses (slot : Fin 32) {c : Circuit} (hc : d.circuit r.circuit = some c)
    (early : r.phase = .arming ∨ r.phase = .listening) :
    d.loseDown slot r = (d.sendOpt r.up (.refuse c.cid r.id (r.k + 1) .linkDown)).dropRun slot := by
  obtain phase | phase := early <;> simp only [Device.loseDown, phase, cidOf_eq hc]

theorem loseDown_reports {c : Circuit} {own : HopResult} (hr : d.runs.get slot = some r)
    (hc : d.circuit r.circuit = some c) (reporting : r.phase = .reporting) (formed : r.own = some own) :
    d.loseDown slot r = { d.sendOpt r.up (.report c.cid r.id true [own]) with
      runs := d.runs.set slot (some { r with
        phase := .awaitingOutcome, deadline := d.now + 1000 * d.timings.outcomeWait }) } := by
  have lost : d.loseDown slot r = d.report slot r true (d.ownList slot) := by
    simp only [Device.loseDown, reporting]
  rw [lost, ownList_eq hr formed, report_eq hr, cidOf_eq hc]

theorem loseDown_awaits (awaits : r.phase = .awaitingOutcome) (d : Device) (slot : Fin 32) :
    d.loseDown slot r = d := by
  simp only [Device.loseDown, awaits]

theorem loseDown_head (atHead : r.phase = .announcing ∨ r.phase = .injecting ∨ r.phase = .collecting) (d : Device)
    (slot : Fin 32) :
    d.loseDown slot r = d.endHead slot ⟨.incomplete, some 1, some (.peer .linkDown)⟩ true := by
  obtain phase | phase | phase := atHead <;> simp only [Device.loseDown, phase]

end

/-- Settles O53: `linkLost_unused` and `linkLost_one`, with the `loseDown_` lemma of each phase. -/
theorem linkLossActsOnTheRunsThatUseIt : Obligations.LinkLossActsOnTheRunsThatUseIt := by
  refine fun d g => ⟨linkLost_unused, fun slot r c hr hc others => ⟨fun up => ?_, fun other down => ?_⟩⟩
  · rw [linkLost_one hr (.inl up) others, if_pos up, cancelDown_eq slot hc]
  · rw [linkLost_one hr (.inr down) others, if_neg other]
    refine ⟨fun early => ?_, fun own reporting formed => ?_, fun awaits => ?_, fun atHead => ?_⟩
    · rw [loseDown_refuses slot hc early]
    · rw [loseDown_reports hr hc reporting formed]
    · rw [loseDown_awaits awaits]
    · rw [loseDown_head atHead]

end Sys2Proof.Machine

/-! SUPPORT. Runs freed with no verdict: CANCEL, the STOP wait and the OUTCOME wait. -/

namespace Sys2Proof.Machine

/-! ### The record once its run is detached (R13, R76) -/

section

variable {d : Device} {c : Circuit}

theorem detached_due (role : c.desc.role ≠ .head) (due : c.service = .due) : c.detached d = { c with
    run := none, attempts := 1, requestDeadline := some (d.now + 1000 * d.timings.requestInterval) } := by
  rw [Circuit.detached, if_pos ⟨role, due⟩, Circuit.startTimer, Device.requestInterval, seconds_eq]

theorem detached_other (other : c.service ≠ .due) : c.detached d = { c with run := none } :=
  if_neg fun ⟨_, due⟩ => other due

/-- R76: a detach touches the run and the request timer alone. -/
theorem detached_keeps (d : Device) (c : Circuit) :
    { c.detached d with attempts := c.attempts, requestDeadline := c.requestDeadline } = { c with run := none } := by
  unfold Circuit.detached
  split
  · rfl
  · rfl

end

/-! ### A run freed with no verdict (R104, R118, R124, R125) -/

/-- R104: the part with a run freed, where the run is `r` and its record `c`. -/
def Device.freed (d : Device) (slot : Fin 32) (r : Run) (c : Circuit) : Device :=
  { d with
    runs := d.runs.set slot none
    grants := d.grants.filter fun g => g.slot != slot
    injectors := (d.freeInjectorOf slot).injectors
    taps := if r.listen = .opened then (d.releaseSlots slot).taps else d.taps
    circuits := d.circuits.set r.circuit (some (c.detached d)) }

section

variable {d : Device} {slot : Fin 32} {r : Run} {c : Circuit}

theorem dropRun_freed (hr : d.runs.get slot = some r) (hc : d.circuit r.circuit = some c) :
    d.dropRun slot = (d.freed slot r c).judgeStaged r.circuit := dropRun_eq hr hc

/-- R118, R125: CANCEL sent down and the run freed. -/
theorem cancelDown_freed (hr : d.runs.get slot = some r) (hc : d.circuit r.circuit = some c) :
    ∃ ports, d.cancelDown slot r = (Device.freed { d with
      links := (d.sendOpt r.down (.cancel c.cid r.id)).links, ports := ports } slot r c).judgeStaged r.circuit := by
  obtain ⟨ports, sent⟩ := sendOpt_ports d r.down (.cancel c.cid r.id)
  generalize (d.sendOpt r.down (.cancel c.cid r.id)).links = links at sent ⊢
  refine ⟨ports, ?_⟩
  rw [cancelDown_eq slot hc, sent, dropRun_freed (by exact hr) (by exact hc)]

end

section

variable {s : State} {slot : Fin 32} {r : Run} {b : Device}

theorem exec_cancel {g : Fin 4} {cid : Nat} {run : RunId} (takes : s.dev.linkTakes g = true)
    (wf : (Message.cancel cid run).wf = true) (found : s.dev.findRun cid run = some slot)
    (hr : s.dev.runs.get slot = some r) (up : r.up = some g) : exec (.cancel g cid run) s =
      .next (s.put (Device.arbitrate (s.dev.heard g) false ((s.dev.heard g).cancelDown slot r))) :=
  on_matched takes wf found hr up fun d slot r => Device.arbitrate d false (d.cancelDown slot r)

theorem exec_cancel_unmatched {g : Fin 4} {cid : Nat} {run : RunId} (takes : s.dev.linkTakes g = true)
    (wf : (Message.cancel cid run).wf = true) (unmatched : s.dev.findRun cid run = none) :
    exec (.cancel g cid run) s = .next (s.put (s.dev.heard g)) := by
  refine (on_received takes wf (Device.cancelArrives g cid run)).trans ?_
  have none_found : (s.dev.heard g).matched cid run (·.up) g = none := matched_none fun slot r found =>
    absurd (unmatched.symm.trans found) nofun
  simp only [Device.cancelArrives, Device.onMatched, none_found]

theorem exec_stopWait (live : s.dev.rst = false) (hr : s.dev.runs.get slot = some r) (waits : r.phase = .listening)
    (hb : b = { s.dev with now := max s.dev.now r.deadline }) :
    exec (.stopWait slot) s = .next (s.put (Device.arbitrate b false (b.cancelDown slot r))) := by
  subst hb
  exact on_waited (waits := fun r => r.phase == .listening) live hr (beq_iff_eq.mpr waits) fun d r =>
    Device.arbitrate d false (d.cancelDown slot r)

theorem exec_outcomeWait (live : s.dev.rst = false) (hr : s.dev.runs.get slot = some r)
    (waits : r.phase = .awaitingOutcome) (hb : b = { s.dev with now := max s.dev.now r.deadline }) :
    exec (.outcomeWait slot) s = .next (s.put (Device.arbitrate b false (b.dropRun slot))) := by
  subst hb
  exact on_waited (waits := fun r => r.phase == .awaitingOutcome) live hr (beq_iff_eq.mpr waits) fun d _ =>
    Device.arbitrate d false (d.dropRun slot)

end

/-- Settles O47: CANCEL and the STOP wait by `cancelDown_freed`, the OUTCOME wait by `dropRun_freed`. -/
theorem runIsFreedQuietly : Obligations.RunIsFreedQuietly := by
  intro s cid run slot r c found hr participates hc role freed hfreed
  obtain ⟨rfl, cid_eq⟩ := findRun_ids found hr
  obtain rfl : c.cid = cid := (cidOf_eq hc).symm.trans cid_eq
  have frees : ∀ (b : Device) links ports,
      freed b (Device.freed { b with links := links, ports := ports } slot r c) := fun b links ports => by
    refine (hfreed _ _).mpr ⟨Table.get_set_self _ _ _, fun q other => Table.get_set_ne _ _ other, ?_, fun due => ?_,
      fun other => ?_, rfl, rfl, rfl⟩
    · rw [apply_ite Device.taps]
      rfl
    · rw [← detached_due (d := b) role due]
      exact Table.get_set_self _ _ _
    · rw [← detached_other (d := b) other]
      exact Table.get_set_self _ _ _
  refine ⟨?cancel, fun live b hb => ⟨fun listening => ?stopWait, fun awaits => ?outcomeWait⟩, ?unmatched⟩
  case cancel =>
    rintro g _ takes wf rfl up
    obtain ⟨ports, dropped⟩ := cancelDown_freed (d := s.dev.heard g) hr hc
    rw [exec_cancel takes wf found hr up, dropped]
    exact ⟨_, rfl, frees _ _ _, rfl⟩
  case stopWait =>
    obtain ⟨ports, dropped⟩ := cancelDown_freed (d := b) (slot := slot) (r := r) (c := c) (by rwa [hb])
      (by rw [hb]; exact hc)
    rw [exec_stopWait live hr listening hb, dropped]
    exact ⟨_, rfl, frees _ _ _, rfl⟩
  case outcomeWait =>
    rw [exec_outcomeWait live hr awaits hb,
      dropRun_freed (d := b) (slot := slot) (r := r) (c := c) (by rwa [hb]) (by rw [hb]; exact hc)]
    exact ⟨_, rfl, frees b b.links b.ports, rfl⟩
  case unmatched =>
    intro g other takes wf unmatched
    exact exec_cancel_unmatched takes wf unmatched

end Sys2Proof.Machine

/-! SUPPORT. OUTCOME: applied to the record of its run, which is freed, or passed on by a record that has no run. -/

namespace Sys2Proof.Machine

/-! ### An OUTCOME applied (R77, R123, R145) -/

theorem take_staged (c : Circuit) (v : Verdict) (k : RunClass) : (c.take v k).staged = c.staged := by cases v <;> rfl

theorem take_desc (c : Circuit) (v : Verdict) (k : RunClass) : (c.take v k).desc = c.desc := by cases v <;> rfl

/-- R77, R123: an OUTCOME of the run attached goes down and is applied to the record, and the run is freed. -/
theorem takeOutcome_freed {d : Device} {slot : Fin 32} {r : Run} {c : Circuit} {o : RunOutcome}
    (hr : d.runs.get slot = some r) (hc : d.circuit r.circuit = some c) (attached : c.run.map (·.id) = some o.run) :
    ∃ ports windows, d.takeOutcome slot r o = (Device.freed { d with
        links := (d.sendOpt r.down (.outcome o)).links, ports := ports, windows := windows
        circuits := d.circuits.set r.circuit (some (c.settle o d.clock.time none)) } slot r
          (c.settle o d.clock.time none)).judgeStaged r.circuit ∧
      (o.verdict ≠ .noVerdict → ∀ w, windows.get w = (d.windows.get w).map (·.resolve r.circuit)) ∧
      ∀ q, d.ownedBy c.owner q = true → hasAtt (ports.get q).attention .outcome = true := by
  obtain ⟨before, sent⟩ := sendOpt_ports d r.down (.outcome o)
  generalize (d.sendOpt r.down (.outcome o)).links = links at sent ⊢
  obtain ⟨ports, windows, applied, resolved, told⟩ :=
    applyOutcome_eq (d := { d with links := links, ports := before }) (i := r.circuit) hc attached none
  refine ⟨ports, windows, ?_, resolved, told⟩
  rw [Device.takeOutcome, sent, applied]
  exact dropRun_freed (d := { d with
    links := links, ports := ports, windows := windows
    circuits := d.circuits.set r.circuit (some (c.settle o d.clock.time none)) }) hr (circuit_set_self d r.circuit _)

section

variable {s : State} {g : Fin 4} {o : RunOutcome}

theorem exec_outcome {slot : Fin 32} {r : Run} (takes : s.dev.linkTakes g = true) (wf : o.wf = true)
    (found : s.dev.findRun o.cid o.run = some slot) (hr : s.dev.runs.get slot = some r) (up : r.up = some g) :
    exec (.outcome g o) s =
      .next (s.put (Device.arbitrate (s.dev.heard g) false ((s.dev.heard g).takeOutcome slot r o))) := by
  refine (on_received (m := .outcome o) takes wf (Device.outcomeArrives g o)).trans ?_
  simp only [Device.outcomeArrives, matched_eq (d := s.dev.heard g) found hr up]

theorem exec_outcome_unmatched (takes : s.dev.linkTakes g = true) (wf : o.wf = true)
    (other : ∀ slot r, s.dev.findRun o.cid o.run = some slot → s.dev.runs.get slot = some r → r.up ≠ some g) :
    exec (.outcome g o) s = .next (s.put ((s.dev.heard g).passOutcome g o)) := by
  refine (on_received (m := .outcome o) takes wf (Device.outcomeArrives g o)).trans ?_
  simp only [Device.outcomeArrives, matched_none (d := s.dev.heard g) (side := Run.up) other]

end

theorem passOutcome_unknown {d : Device} {o : RunOutcome} (unknown : d.findCid o.cid = none) (g : Fin 4) :
    d.passOutcome g o = d := by
  simp [Device.passOutcome, unknown]

theorem passOutcome_found {d : Device} {o : RunOutcome} {i : Fin 256} {c : Circuit} (found : d.findCid o.cid = some i)
    (hc : d.circuit i = some c) (g : Fin 4) : d.passOutcome g o =
      if c.desc.role = .transit ∧ c.desc.ingress = .degree g then d.sendOpt c.desc.egress.degree? (.outcome o)
      else d := by
  simp only [Device.passOutcome, found, Option.bind_some, hc]

/-- Settles O46: an OUTCOME of a run by `takeOutcome_freed`, one that matches none by `passOutcome_found`. -/
theorem outcomeIsAppliedAndPassedDown : Obligations.OutcomeIsAppliedAndPassedDown := by
  rintro s g o _ takes wf rfl
  refine ⟨fun slot r c found hr up hc attached role _ => ?matched, fun other => ⟨fun i c found hc => ?passed,
    fun unknown => ?_⟩⟩
  case matched =>
    obtain ⟨id, -⟩ := findRun_ids found hr
    obtain ⟨ports, windows, taken, resolved, told⟩ :=
      takeOutcome_freed (d := s.dev.heard g) (o := o) hr hc (by rw [attached, Option.map_some, id])
    have kept := detached_keeps (s.dev.heard g) (c.settle o s.dev.clock.time none)
    have settled_role : (c.settle o s.dev.clock.time none).desc.role ≠ .head := by
      rw [Circuit.settle, take_desc]; exact role
    rw [exec_outcome takes wf found hr up, taken]
    refine ⟨_, (c.settle o s.dev.clock.time none).detached (s.dev.heard g), rfl, Table.get_set_self _ _ _, rfl,
      Table.get_set_self _ _ _, ?_, ?_, ?_, ?_, ?_, ?_, ?_, ?_, told⟩
    · exact congrArg Circuit.run kept
    · exact (congrArg Circuit.service kept :)
    · exact (congrArg Circuit.retained kept :)
    · exact (congrArg Circuit.hopList kept).trans (if_neg role)
    · exact (congrArg Circuit.staged kept).trans (take_staged c _ _)
    · exact congrArg Circuit.lastOutcome kept
    · intro due
      rw [detached_due settled_role ((congrArg Circuit.service kept).symm.trans due)]
      exact ⟨rfl, rfl⟩
    · intro counts w y hy awaits
      refine ⟨y.resolve r.circuit, ?_, resolve_takes (by simpa [WindowState.awaits] using awaits) r.circuit⟩
      exact (resolved counts w).trans (by rw [show (s.dev.heard g).windows.get w = some y from hy, Option.map_some])
  case passed =>
    rw [exec_outcome_unmatched takes wf other, passOutcome_found (d := s.dev.heard g) found hc]
    exact ⟨fun transit ingress => by rw [if_pos ⟨transit, ingress⟩], fun stays => by rw [if_neg stays]⟩
  · rw [exec_outcome_unmatched takes wf other, passOutcome_unknown (d := s.dev.heard g) unknown]

end Sys2Proof.Machine

/-! SUPPORT. The end of a head run, stage by stage: what it gives up, the check, the record settled, the queue and the
messages. -/

namespace Sys2Proof.Machine

/-! ### The stages of the end (R41, R97, R108, R143) -/

/-- R143: the check that the policy ESCALATE raises at the end of a run. -/
def Device.escalated (d : Device) (r : Run) (c : Circuit) (f : Finding) : Device :=
  if escalates r.kind c.desc.policy f.cls then
    d.raiseCheck (.escalatedOutcome r.circuit c.cid r.id f.faultHop (siteReason f.site))
  else d

/-- R97: a run that ends DEFERRED rejoins the queue. -/
def Device.requeued (d : Device) (slot : Fin 32) (f : Finding) : Device :=
  if f.cls = .deferred then d.deferRun slot else d

/-- R108: OUTCOME downstream, and CANCEL after it where asked. -/
def Device.tellEnd (d : Device) (r : Run) (o : RunOutcome) (cancel : Bool) : Device :=
  if cancel then (d.sendOpt r.down (.outcome o)).sendOpt r.down (.cancel o.cid r.id) else d.sendOpt r.down (.outcome o)

/-- R142: the outcome that a head run ends with. -/
def endOutcome (r : Run) (c : Circuit) (f : Finding) : RunOutcome where
  cid := c.cid
  run := r.id
  kind := r.kind
  cls := (verdictOf r.kind c.desc.policy f.cls).1
  verdict := (verdictOf r.kind c.desc.policy f.cls).2
  faultHop := f.faultHop
  site := f.site

section

variable {d : Device} {slot : Fin 32} {r : Run} {c : Circuit}

theorem endHead_stages (hr : d.runs.get slot = some r) (hc : d.circuit r.circuit = some c) (f : Finding)
    (cancel : Bool) : d.endHead slot f cancel =
      (Device.freeRun ((((((d.giveUpListen slot).freeInjectorOf slot).escalated r c f).applyOutcome r.circuit
        (endOutcome r c f) r.finalList).requeued slot f).tellEnd r (endOutcome r c f) cancel) slot).judgeStaged
          r.circuit := by
  unfold Device.endHead
  simp only [hr, hc]
  rfl

/-- R143, R173: the check touches the report and the ports alone. -/
theorem escalated_eq (d : Device) (r : Run) (c : Circuit) (f : Finding) :
    ∃ check ports, d.escalated r c f = { d with check := check, ports := ports } := by
  unfold Device.escalated Device.raiseCheck
  split
  · split
    · exact ⟨_, _, rfl⟩
    · exact ⟨_, _, rfl⟩
  · exact ⟨_, _, rfl⟩

/-- R97: only a run that ends DEFERRED touches the queue, where it makes its old entry again, with the defer delay. -/
theorem requeued_eq (d : Device) (slot : Fin 32) (f : Finding) :
    ∃ queue, d.requeued slot f = { d with queue := queue } ∧ (f.cls ≠ .deferred → queue = d.queue) ∧
      ∀ g, f.cls = .deferred → d.grantOf slot = some g → d.isHead g.circuit = true →
        d.queued g.circuit g.kind = none → queue = d.queue ++
          [⟨g.circuit, g.kind, g.cls, g.arrival, g.classTime, some (d.now + 1000 * d.timings.deferDelay)⟩] := by
  unfold Device.requeued
  by_cases deferred : f.cls = .deferred
  · rw [if_pos deferred, Device.deferRun]
    cases granted : d.grantOf slot with
    | none => exact ⟨d.queue, rfl, fun _ => rfl, fun _ _ h => absurd h nofun⟩
    | some g =>
      dsimp only
      rw [seconds_eq]
      by_cases head : d.isHead g.circuit = true
      · obtain ⟨queue, back, joins, -⟩ := putBack_eq head (some (d.now + 1000 * d.timings.deferDelay))
        refine ⟨queue, back, fun other => absurd deferred other, fun g' _ h _ absent => ?_⟩
        obtain rfl : g = g' := Option.some.inj h
        exact joins absent
      · refine ⟨d.queue, by simp [Device.putBack, head], fun _ => rfl, fun g' _ h head' _ => ?_⟩
        obtain rfl : g = g' := Option.some.inj h
        exact absurd head' head
  · rw [if_neg deferred]
    exact ⟨d.queue, rfl, fun _ => rfl, fun _ h => absurd h deferred⟩

/-- R156: what the messages leave in the links depends on the links alone. -/
theorem tellEnd_links {e : Device} (h : d.links = e.links) (r : Run) (o : RunOutcome) (cancel : Bool) :
    (d.tellEnd r o cancel).links = (e.tellEnd r o cancel).links := by
  unfold Device.tellEnd
  split
  · exact sendOpt_links (sendOpt_links h _ _) _ _
  · exact sendOpt_links h _ _

/-- R156: the messages touch the links and the ports alone, and clear no attention. -/
theorem tellEnd_eq {e : Device} (h : d.links = e.links) (r : Run) (o : RunOutcome) (cancel : Bool) :
    ∃ ports, d.tellEnd r o cancel = { d with links := (e.tellEnd r o cancel).links, ports := ports } ∧
      ∀ q k, hasAtt (d.ports.get q).attention k = true → hasAtt (ports.get q).attention k = true := by
  rw [← tellEnd_links h]
  obtain ⟨first, sent⟩ := sendOpt_ports d r.down (.outcome o)
  unfold Device.tellEnd
  split
  · obtain ⟨second, cancelled⟩ := sendOpt_ports (d.sendOpt r.down (.outcome o)) r.down (.cancel o.cid r.id)
    refine ⟨second, ?_, fun q k h => ?_⟩
    · rw [cancelled, sent]
    · have kept := sendOpt_keeps (sendOpt_keeps h r.down (.outcome o)) r.down (.cancel o.cid r.id)
      rwa [cancelled] at kept
  · refine ⟨first, sent, fun q k h => ?_⟩
    have kept := sendOpt_keeps h r.down (.outcome o)
    rwa [sent] at kept

/-! ### The end of a head run (R108, R146) -/

/-- R108: the stages from the check to the messages, on a part `e` that has given up the run's listen and injector. -/
theorem stages_eq {e : Device} {f : Finding} {o : RunOutcome} (links : e.links = d.links)
    (hc : e.circuit r.circuit = some c) (head : c.desc.role = .head) (attached : c.run.map (·.id) = some o.run)
    (slot : Fin 32) (cancel : Bool) :
    ∃ check ports windows queue,
      ((((e.escalated r c f).applyOutcome r.circuit o r.finalList).requeued slot f).tellEnd r o cancel) = { e with
        circuits := e.circuits.set r.circuit (some (c.settle o e.clock.time r.finalList))
        links := (d.tellEnd r o cancel).links
        check := check, ports := ports, windows := windows, queue := queue } ∧
      (f.cls ≠ .deferred → queue = e.queue) ∧
      (∀ g, f.cls = .deferred → e.grantOf slot = some g → g.circuit = r.circuit →
        e.queued g.circuit g.kind = none → queue = e.queue ++
          [⟨g.circuit, g.kind, g.cls, g.arrival, g.classTime, some (e.now + 1000 * e.timings.deferDelay)⟩]) ∧
      ∀ q, e.ownedBy c.owner q = true → hasAtt (ports.get q).attention .outcome = true := by
  obtain ⟨check, alarmed, checked⟩ := escalated_eq e r c f
  obtain ⟨told, windows, applied, -, attended⟩ :=
    applyOutcome_eq (d := { e with check := check, ports := alarmed }) hc attached r.finalList
  obtain ⟨settled, hsettled⟩ : ∃ settled, c.settle o e.clock.time r.finalList = settled := ⟨_, rfl⟩
  have settled_head : settled.desc.role = .head := by rw [← hsettled, Circuit.settle, take_desc]; exact head
  obtain ⟨queue, requeued, stays, joins⟩ := requeued_eq { e with
    check := check, ports := told, windows := windows, circuits := e.circuits.set r.circuit (some settled) } slot f
  obtain ⟨ports, sent, kept⟩ := tellEnd_eq (d := { e with
    check := check, ports := told, windows := windows, circuits := e.circuits.set r.circuit (some settled)
    queue := queue }) links r o cancel
  refine ⟨check, ports, windows, queue, ?_, stays, fun g deferred granted circuit absent => ?_, fun q owned =>
    kept q _ (attended q owned)⟩
  · rw [checked, applied, hsettled]
    exact (congrArg (Device.tellEnd · r o cancel) requeued).trans sent
  · exact joins g deferred granted (isHead_of (by rw [circuit]; exact circuit_set_self e r.circuit _) settled_head)
      absent

/-- R108: what the end of a head run leaves, up to the judgement of a staged edit. -/
theorem endHead_eq {f : Finding} {o : RunOutcome} (hr : d.runs.get slot = some r) (hc : d.circuit r.circuit = some c)
    (head : c.desc.role = .head) (attached : c.run.map (·.id) = some r.id) (ho : o = endOutcome r c f)
    (cancel : Bool) :
    ∃ check ports windows taps injectors queue, d.endHead slot f cancel = Device.judgeStaged { d with
        runs := d.runs.set slot none
        grants := d.grants.filter fun g => g.slot != slot
        circuits := d.circuits.set r.circuit (some { c.settle o d.clock.time r.finalList with run := none })
        links := (d.tellEnd r o cancel).links
        check := check, ports := ports, windows := windows, taps := taps, injectors := injectors, queue := queue }
          r.circuit ∧
      (∀ j, (injectors.get j).run ≠ some slot) ∧ (f.cls ≠ .deferred → queue = d.queue) ∧
      (∀ g, f.cls = .deferred → d.grantOf slot = some g → g.circuit = r.circuit →
        d.queued g.circuit g.kind = none → queue = d.queue ++
          [⟨g.circuit, g.kind, g.cls, g.arrival, g.classTime, some (d.now + 1000 * d.timings.deferDelay)⟩]) ∧
      ∀ q, d.ownedBy c.owner q = true → hasAtt (ports.get q).attention .outcome = true := by
  have ended := endHead_stages hr hc f cancel
  have settled_head : (c.settle o d.clock.time r.finalList).desc.role = .head := by
    rw [Circuit.settle, take_desc]; exact head
  rw [giveUpListen_eq hr, ← ho] at ended
  generalize given_run : (if r.listen = .opened then { r with listen := .none } else r) = given at ended
  have circuit : given.circuit = r.circuit := by
    rw [← given_run]
    split
    · rfl
    · rfl
  generalize (if r.listen = .opened then (d.releaseSlots slot).taps else d.taps) = taps at ended
  obtain ⟨injectors, freed⟩ : ∃ injectors, Device.freeInjectorOf { d with
      runs := d.runs.set slot (some given), taps := taps } slot = { d with
      runs := d.runs.set slot (some given), taps := taps, injectors := injectors } := ⟨_, rfl⟩
  obtain ⟨check, ports, windows, queue, staged, stays, joins, told⟩ := stages_eq (e := { d with
    runs := d.runs.set slot (some given), taps := taps, injectors := injectors }) (d := d) (f := f) (o := o) rfl hc head
      (by rw [attached, ho]; rfl) slot cancel
  rw [freed, staged, freeRun_circuit (r := given) (Table.get_set_self _ _ _)
    (by rw [circuit]; exact circuit_set_self d r.circuit _), circuit, detached_head settled_head, Table.set_set,
    Table.set_set] at ended
  exact ⟨_, _, _, _, _, _, ended, freeInjectorOf_none _ slot, stays, joins, told⟩

end

/-- Settles O44: `endHead_eq`, with the fields of the record settled. -/
theorem headRunEndsWithAnOutcome : Obligations.HeadRunEndsWithAnOutcome := by
  intro d slot r c f cancel o hr hc _ head attached ho
  obtain ⟨check, ports, windows, taps, injectors, queue, ended, injectors_free, stays, joins, told⟩ :=
    endHead_eq hr hc head (by rw [attached]; rfl) ho cancel
  rw [ended]
  refine ⟨_, rfl, Table.get_set_self _ _ _, fun q other => Table.get_set_ne _ _ other, injectors_free, fun g hg => ?_,
    ⟨_, Table.get_set_self _ _ _, rfl, rfl, rfl, take_staged c _ _, ?_, fun hops => ?_, fun none_hops unformed => ?_⟩,
    stays, fun g deferred granted circuit kind absent => ?_, ?_, told⟩
  · simpa using (List.mem_filter.mp hg).2
  · rw [ho]; rfl
  · exact (if_pos head).trans (if_pos hops)
  · refine (if_pos head).trans ?_
    rw [Run.finalList, if_neg (not_not_intro none_hops), unformed, Option.map_none]
  · exact joins g deferred granted circuit (by rw [circuit, kind]; exact absent)
  · rw [ho]; rfl

end Sys2Proof.Machine

/-! SUPPORT. COMMIT-, DISCARD- and CLEAR-BASELINE. -/

namespace Sys2Proof.Machine

/-! ### The three commands about the baselines (R137, R138) -/

theorem commit_some {c : Circuit} {b : Candidate} (h : c.candidate = some b) :
    c.commit = { c with committed := some ⟨b.inLevel, b.outLevel, b.time⟩, candidate := none } := by
  simp only [Circuit.commit, h]

section

variable {s : State} {p : Fin 4} {body : List Byte} {c : Circuit}

/-- R137: COMMIT-BASELINE of a port with the right to it. -/
theorem exec_commitBaseline (takes : s.dev.takesAny p = true) (length : body.length = 4)
    (may : s.dev.mayName p body .ownerOrLine c) : exec (.commitBaseline p body) s = .next (s.put
      (if c.candidate.isNone then s.dev.respond p 0x1A 0x13 []
        else (s.dev.onCircuit (namedIndex body) Circuit.commit).respond p 0x1A 0x00 [])) := by
  refine (on_request_any takes (by simp [length]) 0x1A (Device.commitBaseline p body)).trans ?_
  rw [Device.commitBaseline, onNamed_taken may, rcNotFound, rcOk]

/-- R138: DISCARD-BASELINE of a port with the right to it. -/
theorem exec_discardBaseline (takes : s.dev.takesAny p = true) (length : body.length = 4)
    (may : s.dev.mayName p body .ownerOrLine c) : exec (.discardBaseline p body) s = .next (s.put
      (if c.candidate.isNone then s.dev.respond p 0x1B 0x13 []
        else (s.dev.onCircuit (namedIndex body) Circuit.discard).respond p 0x1B 0x00 [])) := by
  refine (on_request_any takes (by simp [length]) 0x1B (Device.discardBaseline p body)).trans ?_
  rw [Device.discardBaseline, onNamed_taken may, rcNotFound, rcOk]

/-- R138: CLEAR-BASELINE of a port with the right to it. -/
theorem exec_clearBaseline (takes : s.dev.takesAny p = true) (length : body.length = 4)
    (may : s.dev.mayName p body .ownerOrLine c) : exec (.clearBaseline p body) s = .next (s.put
      ((s.dev.onCircuit (namedIndex body) Circuit.clearBaselines).respond p 0x1C 0x00 [])) := by
  refine (on_request_any takes (by simp [length]) 0x1C (Device.clearBaseline p body)).trans ?_
  rw [Device.clearBaseline, onNamed_taken may, rcOk]

end

/-- Settles O20: each command by what it does to the record named, which is the one at the index named. -/
theorem baselineCommandsMoveAndRemove : Obligations.BaselineCommandsMoveAndRemove := by
  rintro s p body i c answer takes length rfl may hanswer
  obtain ⟨hc, -⟩ := named_circuit may.1
  rw [exec_commitBaseline takes length may, exec_discardBaseline takes length may,
    exec_clearBaseline takes length may]
  simp only [hanswer, onCircuit_eq hc]
  refine ⟨fun without => ?_, fun b candidate => ?_, rfl⟩
  · rw [without]
    exact ⟨rfl, rfl⟩
  · rw [commit_some candidate, candidate]
    exact ⟨rfl, rfl⟩

end Sys2Proof.Machine

/-! SUPPORT. The hop result: the hand-over searched, and the hop verdict by its tables. -/

namespace Sys2Proof.Machine

/-! ### The hand-over searched (R35) -/

/-- R35: the entry of one tap in the hand-over, of the run's slot there. -/
def Device.entryAt (d : Device) (slot : Fin 32) (t : Fin 16) : Option HandOver :=
  ((d.taps.get t).slotOf slot).map fun a => ⟨t, a.purpose, a.sighting, a.level (d.tapSettings t).trim⟩

section

variable {d : Device} {slot : Fin 32}

theorem entryAt_eq_some {t : Fin 16} {e : HandOver} : d.entryAt slot t = some e ↔
    ∃ a, (d.taps.get t).slotOf slot = some a ∧
      (⟨t, a.purpose, a.sighting, a.level (d.tapSettings t).trim⟩ : HandOver) = e := by
  simp [Device.entryAt]

/-- R35: the hand-over stands in ascending tap number, so that what is found first is of the lowest tap. -/
theorem find_handOver {p : HandOver → Bool} {e : HandOver} : (d.handOver slot).find? p = some e ↔
    ∃ t, (d.entryAt slot t = some e ∧ p e = true) ∧ ∀ u, u < t → ∀ x, d.entryAt slot u = some x → p x = false := by
  rw [show d.handOver slot = (List.finRange 16).filterMap (d.entryAt slot) from rfl, List.find?_filterMap]
  simp only [Option.bind_eq_some_iff, Table.find_lowest, Option.any_eq_true, Option.any_eq_false]
  refine exists_congr fun t => ⟨?_, ?_⟩
  · rintro ⟨⟨⟨x, hx, holds⟩, lowest⟩, he⟩
    obtain rfl : x = e := Option.some.inj (hx.symm.trans he)
    exact ⟨⟨he, holds⟩, fun u hu y hy => by simpa using lowest u hu y hy⟩
  · rintro ⟨⟨he, holds⟩, lowest⟩
    exact ⟨⟨⟨e, he, holds⟩, fun u hu y hy => by simpa using lowest u hu y hy⟩, he⟩

/-- R35: the entry of the one tap whose slot has the purpose. -/
theorem find_purpose {t : Fin 16} {a : ListenSlot} (ha : (d.taps.get t).slotOf slot = some a)
    (one : ∀ u b, u ≠ t → (d.taps.get u).slotOf slot = some b → b.purpose ≠ a.purpose) :
    ((d.handOver slot).find? fun e => e.purpose == a.purpose) =
      some ⟨t, a.purpose, a.sighting, a.level (d.taps.get t).settings.trim⟩ := by
  refine find_handOver.mpr ⟨t, ⟨entryAt_eq_some.mpr ⟨a, ha, rfl⟩, beq_self_eq_true _⟩, fun u below x hx => ?_⟩
  obtain ⟨b, hb, rfl⟩ := entryAt_eq_some.mp hx
  exact beq_eq_false_iff_ne.mpr (one u b below.ne hb)

/-- R35: an entry that is SEEN has a level. -/
theorem level_of_found {p : HandOver → Bool} {e : HandOver} (h : (d.handOver slot).find? p = some e)
    (seen : e.sighting = .seen) : ∃ v, e.level = some v := by
  obtain ⟨t, ⟨he, -⟩, -⟩ := find_handOver.mp h
  obtain ⟨a, -, rfl⟩ := entryAt_eq_some.mp he
  exact ⟨_, if_pos seen⟩

/-- R35: the stray tap is the lowest tap with a WATCH slot of the run that is SEEN. -/
theorem strayTap_eq_some {t : Fin 16} : strayTap (d.handOver slot) = some t ↔
    (∃ a, (d.taps.get t).slotOf slot = some a ∧ a.purpose = .watch ∧ a.sighting = .seen) ∧
      ∀ u b, u < t → (d.taps.get u).slotOf slot = some b → b.purpose = .watch → b.sighting ≠ .seen := by
  simp only [strayTap, Option.map_eq_some_iff, find_handOver]
  constructor
  · rintro ⟨e, ⟨u, ⟨he, holds⟩, lowest⟩, rfl⟩
    obtain ⟨a, ha, rfl⟩ := entryAt_eq_some.mp he
    refine ⟨⟨a, ha, by simpa using holds⟩, fun v b below hb => ?_⟩
    simpa using lowest v below _ (entryAt_eq_some.mpr ⟨b, hb, rfl⟩)
  · rintro ⟨⟨a, ha, holds⟩, lowest⟩
    refine ⟨_, ⟨t, ⟨entryAt_eq_some.mpr ⟨a, ha, rfl⟩, by simpa using holds⟩, fun u below x hx => ?_⟩, rfl⟩
    obtain ⟨b, hb, rfl⟩ := entryAt_eq_some.mp hx
    simpa using lowest u b below hb

end

/-! ### The hop verdict (R133, R134) -/

/-- R134: the difference in question, as the tolerance compares it. -/
theorem beyond_iff {tolerance : Nat} {x y : Int} : beyond tolerance x y = true ↔ (tolerance : Int) < |x - y| := by
  rw [beyond, decide_eq_true_iff, Int.abs_eq_natAbs, Nat.cast_lt]

section

variable {kind : Kind} {c : Circuit} {sight out : Sighting} {stray : Option (Fin 16)} {x y : Option Int}

theorem hopVerdict_inMissing (h : sight ≠ .seen) : hopVerdict kind c sight stray out x y = .inMissing := if_pos h

theorem hopVerdict_misrouted (h : stray.isSome = true) : hopVerdict kind c .seen stray out x y = .misrouted := if_pos h

theorem hopVerdict_outMissing (h : out ≠ .seen) : hopVerdict kind c .seen none out x y = .outMissing := if_pos h

theorem hopVerdict_through (x y : Int) :
    hopVerdict kind c .seen none .seen (some x) (some y) = throughVerdict kind c x y := rfl

end

section

variable {kind : Kind} {c : Circuit} {b : Baseline} {x y : Int}

/-- R134: first, a hop that nothing can be compared with. -/
theorem throughVerdict_noBaseline (h : kind = .baseline ∨ c.committed = none) :
    throughVerdict kind c x y = .throughNoBaseline := by
  unfold throughVerdict
  split
  · rfl
  · rfl
  next committed => simp [committed] at h

/-- R134: a VERIFY run's hop against the committed baseline. -/
theorem throughVerdict_verify (committed : c.committed = some b) : throughVerdict .verify c x y =
    if (c.desc.tolerance : Int) < |x - b.inLevel| ∨ (c.desc.tolerance : Int) < |y - b.outLevel| then .throughDegraded
    else .throughOk := by
  simp only [throughVerdict, committed, Bool.or_eq_true, beyond_iff]

end

/-! ### The hop result (R132) -/

section

variable {d : Device} {slot : Fin 32} {kind : Kind} {c : Circuit}

/-- R132, R133: the stray tap is that of the hand-over, and the verdict is by the tables. -/
theorem formHop_verdict (stray : Option (Fin 16)) (h : strayTap (d.handOver slot) = stray) :
    (d.formHop slot kind c).stray = stray.map (·.val) ∧
    (d.formHop slot kind c).verdict = hopVerdict kind c (d.formHop slot kind c).inSight stray
      (d.formHop slot kind c).outSight (d.formHop slot kind c).inLevel (d.formHop slot kind c).outLevel := by
  subst h
  exact ⟨rfl, rfl⟩

/-- R132: ingress, as the entry found shows it. -/
theorem formHop_ingress {e : HandOver} (h : ((d.handOver slot).find? fun e => e.purpose == .ingress) = some e) :
    (d.formHop slot kind c).inSight = e.sighting ∧ (d.formHop slot kind c).inLevel = e.level ∧
      (d.formHop slot kind c).inClass = (d.taps.get e.tap).lightClass := by
  simp [Device.formHop, h]

/-- R132: egress, as the entry found shows it. -/
theorem formHop_egress {e : HandOver} (h : ((d.handOver slot).find? fun e => e.purpose == .expectedEgress) = some e) :
    (d.formHop slot kind c).outSight = e.sighting ∧ (d.formHop slot kind c).outLevel = e.level := by
  simp [Device.formHop, h]

theorem formHop_noIngress (h : ((d.handOver slot).find? fun e => e.purpose == .ingress) = none) :
    (d.formHop slot kind c).inSight = .notSeen := by
  simp [Device.formHop, h]

theorem formHop_noEgress (h : ((d.handOver slot).find? fun e => e.purpose == .expectedEgress) = none) :
    (d.formHop slot kind c).outSight = .notSeen := by
  simp [Device.formHop, h]

/-- R35, R132: a hop result that shows ingress SEEN has its level. -/
theorem formHop_inLevel (seen : (d.formHop slot kind c).inSight = .seen) :
    ∃ x, (d.formHop slot kind c).inLevel = some x := by
  cases found : (d.handOver slot).find? fun e => e.purpose == .ingress with
  | none => exact absurd (seen.symm.trans (formHop_noIngress found)) nofun
  | some e =>
    obtain ⟨sight, level, -⟩ := formHop_ingress (kind := kind) (c := c) found
    exact level ▸ level_of_found found (sight.symm.trans seen)

/-- R35, R132: a hop result that shows egress SEEN has its level. -/
theorem formHop_outLevel (seen : (d.formHop slot kind c).outSight = .seen) :
    ∃ y, (d.formHop slot kind c).outLevel = some y := by
  cases found : (d.handOver slot).find? fun e => e.purpose == .expectedEgress with
  | none => exact absurd (seen.symm.trans (formHop_noEgress found)) nofun
  | some e =>
    obtain ⟨sight, level⟩ := formHop_egress (kind := kind) (c := c) found
    exact level ▸ level_of_found found (sight.symm.trans seen)

end

/-- Settles O49: ingress and egress by `find_purpose`, the stray tap by `strayTap_eq_some`, and the verdict by the rows
of the two tables. -/
theorem hopVerdictFollowsTheSightings : Obligations.HopVerdictFollowsTheSightings := by
  intro d slot kind c own hown
  obtain ⟨stray, hstray⟩ : ∃ stray, strayTap (d.handOver slot) = stray := ⟨_, rfl⟩
  obtain ⟨own_stray, verdict⟩ := formHop_verdict (kind := kind) (c := c) stray hstray
  have inLevel := formHop_inLevel (d := d) (slot := slot) (kind := kind) (c := c)
  have outLevel := formHop_outLevel (d := d) (slot := slot) (kind := kind) (c := c)
  rw [← hown] at own_stray verdict inLevel outLevel
  refine ⟨by rw [hown]; rfl, by rw [hown]; rfl, ?purposes, fun t => ?stray, fun missing => ?inMissing,
    fun seen strays => ?misrouted, fun seen unstrayed missing => ?outMissing, fun seen unstrayed out => ?through⟩
  case purposes =>
    rintro t x a rfl ha one
    have found := find_purpose ha one
    rw [hown]
    constructor
    · intro ingress
      exact formHop_ingress (by rw [← found, ingress])
    · intro egress
      exact formHop_egress (by rw [← found, egress])
  case stray =>
    rw [own_stray, ← strayTap_eq_some, hstray]
    simp [Option.map_eq_some_iff, Fin.val_inj]
  case inMissing =>
    rw [verdict]
    exact hopVerdict_inMissing (by rintro seen; simp [seen] at missing)
  case misrouted =>
    rw [verdict, seen]
    exact hopVerdict_misrouted (by simpa [own_stray] using strays)
  case outMissing =>
    obtain rfl : stray = none := by simpa [own_stray] using unstrayed
    rw [verdict, seen]
    exact hopVerdict_outMissing (by rintro out; simp [out] at missing)
  case through =>
    obtain rfl : stray = none := by simpa [own_stray] using unstrayed
    obtain ⟨x, hx⟩ := inLevel seen
    obtain ⟨y, hy⟩ := outLevel out
    rw [seen, out, hx, hy, hopVerdict_through] at verdict
    refine ⟨x, y, hx, hy, fun nothing => verdict.trans (throughVerdict_noBaseline nothing), ?_⟩
    rintro b rfl committed
    rw [verdict, throughVerdict_verify committed]
    exact ⟨fun beyond => if_pos beyond, fun within_in within_out => if_neg (by omega)⟩

end Sys2Proof.Machine

/-! SUPPORT. The head classifies its hop list, and gives class sent and verdict. -/

namespace Sys2Proof.Machine

/-! ### The head's classification (R139, R140) -/

section

variable {l before after : List HopResult} {x : HopResult} {truncated : Bool} {n : Nat}

/-- R139: the first hop that is not THROUGH decides. -/
theorem classify_deciding (through : ∀ y ∈ before, isThrough y.verdict = true) (fails : isThrough x.verdict = false) :
    classify ⟨before ++ x :: after, truncated⟩ n = decidingHop x := by
  have first : ((before ++ x :: after).find? fun h => !isThrough h.verdict) = some x :=
    List.find?_eq_some_iff_append.mpr ⟨by simp [fails], before, after, rfl, by simpa using through⟩
  simp only [classify, first]

/-- R140: no hop of a list of THROUGH hops decides. -/
theorem find_deciding_none (through : ∀ y ∈ l, isThrough y.verdict = true) :
    (l.find? fun h => !isThrough h.verdict) = none := List.find?_eq_none.mpr (by simpa using through)

/-- R120, R140: a list marked truncated and short of its path. -/
theorem classify_truncated (through : ∀ y ∈ l, isThrough y.verdict = true) (short : l.length < n) :
    classify ⟨l, true⟩ n = ⟨.incomplete, some l.length, some (.peer .silent)⟩ := by
  have judged : judgedTruncated ⟨l, true⟩ n = true := by simp [judgedTruncated, short]
  simp only [classify, find_deciding_none through, if_pos judged]

/-- R120, R140: a list that carries every hop is not judged truncated. -/
theorem judgedTruncated_whole (whole : l.length = n) : judgedTruncated ⟨l, truncated⟩ n = false := if_pos whole.ge

theorem classify_verified (through : ∀ y ∈ l, isThrough y.verdict = true) (whole : l.length = n)
    (kept : ∀ y ∈ l, y.verdict ≠ .throughDegraded) : classify ⟨l, truncated⟩ n = ⟨.verified, none, none⟩ := by
  have undegraded : (l.find? fun h => h.verdict == .throughDegraded) = none :=
    List.find?_eq_none.mpr (by simpa using kept)
  simp [classify, find_deciding_none through, judgedTruncated_whole whole, undegraded]

theorem classify_degraded (through : ∀ y ∈ before ++ x :: after, isThrough y.verdict = true)
    (whole : (before ++ x :: after).length = n) (kept : ∀ y ∈ before, y.verdict ≠ .throughDegraded)
    (degraded : x.verdict = .throughDegraded) :
    classify ⟨before ++ x :: after, truncated⟩ n = ⟨.degraded, some x.hop, none⟩ := by
  have first : ((before ++ x :: after).find? fun h => h.verdict == .throughDegraded) = some x :=
    List.find?_eq_some_iff_append.mpr ⟨by simp [degraded], before, after, rfl, by simpa using kept⟩
  simp only [classify, find_deciding_none through, judgedTruncated_whole whole, first, Bool.false_eq_true, if_false]

end

/-! ### The class sent and the verdict (R142 to R144) -/

theorem verdictOf_incomplete (policy : Policy) : verdictOf .verify policy .incomplete =
    if policy = .accept then (.partialPath, .pass) else (.incomplete, .fail) := by
  cases policy <;> rfl

theorem escalates_iff {kind : Kind} {policy : Policy} {cls : RunClass} :
    escalates kind policy cls = true ↔ kind = .verify ∧ policy = .escalate ∧ cls = .incomplete := by
  simp [escalates, and_assoc]

/-- Settles O50: the classification by what the head finds first, and the verdict by R142's table. -/
theorem headClassifiesAndGivesTheVerdict : Obligations.HeadClassifiesAndGivesTheVerdict := by
  refine ⟨fun before x after truncated n through => ⟨⟨?inMissing, ?outMissing, ?misrouted⟩,
      fun short => classify_truncated through short, fun whole kept => classify_verified through whole kept,
      fun kept degraded clean whole => classify_degraded ?allThrough whole kept degraded⟩,
    fun policy => ⟨⟨rfl, rfl, rfl, rfl, rfl⟩, verdictOf_incomplete policy, fun _ => rfl, fun _ _ => escalates_iff⟩⟩
  case inMissing =>
    intro verdict
    rw [classify_deciding through (by rw [verdict]; rfl), decidingHop, verdict]
  case outMissing =>
    intro verdict
    rw [classify_deciding through (by rw [verdict]; rfl), decidingHop, verdict]
  case misrouted =>
    intro t verdict stray
    rw [classify_deciding through (by rw [verdict]; rfl), decidingHop, verdict, stray]
    rfl
  case allThrough =>
    intro y hy
    obtain hy | rfl | hy := by simpa using hy
    · exact through y hy
    · rw [degraded]; rfl
    · exact clean y hy

end Sys2Proof.Machine

/-! SUPPORT. The links stay sound: what writes a link, what only hands messages to links, and what leaves the links and
the configuration as they are. -/

namespace Sys2Proof.Machine

/-! ### One link (R147, R148, R156, R157) -/

/-- R147: a link that is sound stays sound, and one that is DISABLED stays DISABLED. -/
def Link.StaysSound (l m : Link) : Prop := l.sound → m.sound ∧ (l.state = .disabled → m.state = .disabled)

/-- The ids seen, the HELLO's instant and the bytes sent play no part in a link's soundness. -/
theorem Link.StaysSound.of_fields {l m : Link} (state : m.state = l.state) (silence : m.silence = l.silence)
    (queue : m.queue = l.queue) (agreeing : m.agreeing = l.agreeing) : l.StaysSound m := by
  intro sound
  unfold Link.sound
  rw [state, silence, queue, agreeing]
  exact ⟨sound, id⟩

theorem heard_staysSound (now : Nat) (l : Link) : l.StaysSound (l.heard now) := by
  rintro ⟨silence, queue, few, agreeing⟩
  unfold Link.heard
  split
  next hears => exact ⟨⟨hears.symm, queue, few, agreeing⟩, id⟩
  · exact ⟨⟨silence, queue, few, agreeing⟩, id⟩

/-- R152: the agreeing HELLO that takes a link out of DOWN finds its queue empty. -/
theorem probe_staysSound (now : Nat) {l : Link} (down : l.state = .down) : l.StaysSound (l.probe now) := by
  rintro ⟨-, queue, few, -⟩
  exact ⟨⟨rfl, fun _ => queue (by simp [down]), few, by simp [Link.probe]⟩, by simp [down]⟩

/-- R152, R155: an agreeing HELLO counts to three at most, and takes a link UP that hears already. -/
theorem agree_staysSound {l : Link} (hears : l.state.hears = true) : l.StaysSound l.agree := by
  rintro ⟨silence, queue, few, agreeing⟩
  have enabled : l.state ≠ .disabled := fun disabled => by simp [disabled, LinkState.hears] at hears
  refine ⟨?_, fun disabled => absurd disabled enabled⟩
  unfold Link.agree
  split
  next below => exact ⟨silence, queue, few, by dsimp only; omega⟩
  next => exact ⟨silence.trans hears, fun up => absurd rfl up, few, Nat.le_refl 3⟩

/-- R154: a link taken to MISWIRED has an empty queue and a silence deadline. -/
theorem miswire_staysSound (now : Nat) {l : Link} (enabled : l.state ≠ .disabled) : l.StaysSound (l.miswire now) :=
  fun _ => ⟨⟨rfl, fun _ => rfl, Nat.zero_le _, Nat.zero_le _⟩, fun disabled => absurd disabled enabled⟩

/-- R153: a link taken to DOWN has an empty queue and no silence deadline; one with a deadline was not DISABLED. -/
theorem goDown_staysSound {l : Link} {t : Nat} (deadline : l.silence = some t) : l.StaysSound l.goDown := by
  rintro ⟨silence, -, -, -⟩
  refine ⟨⟨rfl, fun _ => rfl, Nat.zero_le _, Nat.zero_le _⟩, fun disabled => ?_⟩
  simp [deadline, disabled, LinkState.hears] at silence

/-- R157: a frame that is sent leaves the queue. -/
theorem transmit_staysSound (l : Link) : l.StaysSound l.transmit := by
  rintro ⟨silence, queue, few, agreeing⟩
  unfold Link.transmit
  split
  next m rest up holds =>
    rw [holds, List.length_cons] at few
    exact ⟨⟨silence, fun other => absurd up other, Nat.le_of_succ_le few, agreeing⟩, id⟩
  next => exact ⟨⟨silence, queue, few, agreeing⟩, id⟩

/-- R147, R179: a DISABLED link that an image enables is in DOWN, with nothing queued and no deadline. -/
theorem configured_sound (now node : Nat) (g : Fin 4) (enabled : Bool) {l : Link} (sound : l.sound)
    (disabled : l.state = .disabled) : (l.configured now node g enabled).sound := by
  obtain ⟨silence, queue, few, agreeing⟩ := sound
  unfold Link.configured
  split
  · exact ⟨by rw [silence, disabled]; rfl, fun _ => queue (by simp [disabled]), few, agreeing⟩
  · exact ⟨silence, queue, few, agreeing⟩

theorem linkReset_sound : Link.reset.sound := ⟨rfl, fun _ => rfl, Nat.zero_le _, Nat.zero_le _⟩

/-! ### Operations that keep the links sound -/

/-- What the soundness of the links is about. -/
def Device.linkSide (d : Device) : Table Link 4 × Option Settings × Bool × Bool :=
  (d.links, d.running, d.loading, d.rst)

/-- Where `d` has its links sound, so has `e`. -/
def Device.KeepsLinks (d e : Device) : Prop := d.linksSound → e.linksSound

namespace Device.KeepsLinks

variable {d e f x : Device}

theorem rfl' (d : Device) : d.KeepsLinks d := id

theorem trans (h : d.KeepsLinks e) (k : e.KeepsLinks f) : d.KeepsLinks f := k ∘ h

theorem thenIf {c : Prop} [Decidable c] (h : d.KeepsLinks e) (k : e.KeepsLinks x) :
    d.KeepsLinks (if c then x else e) := by
  split
  · exact h.trans k
  · exact h

/-- A fold of operations that keep the links sound keeps them sound. -/
theorem foldl {α : Type} {f : Device → α → Device} (h : ∀ (d : Device) a, d.KeepsLinks (f d a)) (l : List α)
    (d : Device) : d.KeepsLinks (l.foldl f d) := by
  induction l generalizing d with
  | nil => exact rfl' d
  | cons a l ih => exact (h d a).trans (ih (f d a))

theorem of_side (h : e.linkSide = d.linkSide) : d.KeepsLinks e := by
  simp only [Device.linkSide, Prod.mk.injEq] at h
  obtain ⟨links, running, loading, rst⟩ := h
  unfold Device.KeepsLinks Device.linksSound
  rw [links, running, loading, rst]
  exact id

theorem after (k : e.KeepsLinks f) (h : e.linkSide = d.linkSide) : d.KeepsLinks f := (of_side h).trans k

theorem before (h : d.KeepsLinks e) (k : f.linkSide = e.linkSide) : d.KeepsLinks f := h.trans (of_side k)

end Device.KeepsLinks

/-- A link written anew keeps the links sound where the link itself stays sound. -/
theorem link_keepsLinks {d : Device} {g : Fin 4} {f : Link → Link}
    (h : (d.links.get g).StaysSound (f (d.links.get g))) : d.KeepsLinks (d.link g f) := by
  have every : ∀ q, (d.links.get q).StaysSound ((d.link g f).links.get q) := fun q => by
    rw [link_links, Table.modify_eq_set, Table.get_set]
    split
    next same => rwa [same]
    next => exact fun sound => ⟨sound, id⟩
  rintro ⟨sound, unconfigured, held⟩
  exact ⟨fun q => (every q (sound q)).1, fun none q => (every q (sound q)).2 (unconfigured none q), held⟩

/-- R156: a message handed to a link finds room in the queue of an UP link, or leaves the links as they are. -/
theorem send_keepsLinks (d : Device) (g : Fin 4) (m : Message) : d.KeepsLinks (d.send g m) := by
  obtain ⟨same, -⟩ | ⟨up, room, joins⟩ | ⟨-, -, full⟩ := send_cases d g m
  · rw [same]; exact .rfl' d
  · rw [joins]
    refine link_keepsLinks fun ⟨silence, _, _, agreeing⟩ => ?_
    exact ⟨⟨silence, fun other => absurd up other, by simpa using room, agreeing⟩, id⟩
  · rw [full]; exact .of_side rfl

theorem sendOpt_keepsLinks (d : Device) (g : Option (Fin 4)) (m : Message) : d.KeepsLinks (d.sendOpt g m) := by
  cases g with
  | none => exact .rfl' d
  | some g => exact send_keepsLinks d g m

/-- R178: after a reset every link is as `Link.reset` has it and no image is in force. -/
theorem reset_linksSound {e : Device} (links : e.links = .all 4 .reset) (running : e.running = none) :
    e.linksSound := by
  refine ⟨fun g => ?_, fun _ g => ?_, fun _ => running⟩
  · rw [links, Table.get_all]; exact linkReset_sound
  · rw [links, Table.get_all]; rfl

/-- R179: an image applied to an UNCONFIGURED part outside reset. -/
theorem applyImage_linksSound {d : Device} (im : Image) (sound : d.linksSound) (unconfigured : d.running = none)
    (rst : d.rst = false) : (d.applyImage im).linksSound := by
  obtain ⟨each, disabled, -⟩ := sound
  refine ⟨fun g => ?_, fun none => ?_, fun held => ?_⟩
  · have : (d.applyImage im).links.get g =
        (d.links.get g).configured d.now im.settings.nodeId g (im.settings.degrees.get g).enabled :=
      Table.get_mapIdx _ _ g
    rw [this]
    exact configured_sound _ _ g _ (each g) (disabled unconfigured g)
  · cases none
  · obtain loading | asserted := held
    · cases loading
    · exact absurd (asserted.symm.trans rst) Bool.noConfusion

/-! ### What leaves the links and the configuration as they are -/

theorem port_linkSide (d : Device) (p : Fin 4) (f : PortCtx → PortCtx) : (d.port p f).linkSide = d.linkSide := rfl

theorem respond_linkSide (d : Device) (p : Fin 4) (code rc : Nat) (body : List Byte) :
    (d.respond p code rc body).linkSide = d.linkSide := rfl

theorem raiseLine_linkSide (d : Device) (c : AttClass) : (d.raiseLine c).linkSide = d.linkSide := rfl

theorem onCircuit_linkSide (d : Device) (i : Fin 256) (f : Circuit → Circuit) :
    (d.onCircuit i f).linkSide = d.linkSide := rfl

theorem attendChange_linkSide (d : Device) (i : Fin 256) (b : Option Circuit) :
    (d.attendChange i b).linkSide = d.linkSide := by
  obtain ⟨ports, e⟩ := attendChange_ports d i b
  rw [e]; rfl

theorem raiseCheck_linkSide (d : Device) (c : CheckCause) : (d.raiseCheck c).linkSide = d.linkSide := by
  unfold Device.raiseCheck
  split
  · rfl
  · rfl

theorem enqueue_linkSide (d : Device) (i : Fin 256) (k : Kind) (cls : QClass) :
    (d.enqueue i k cls).linkSide = d.linkSide := by
  unfold Device.enqueue
  split
  · rfl
  split
  · rfl
  unfold Device.newEntry Device.moveCounter
  split
  · rfl
  · rfl

theorem putBack_linkSide (d : Device) (g : GrantRecord) (t : Option Nat) : (d.putBack g t).linkSide = d.linkSide := by
  unfold Device.putBack
  split
  · rfl
  split
  · rfl
  · rfl

theorem deferRun_linkSide (d : Device) (s : Fin 32) : (d.deferRun s).linkSide = d.linkSide := by
  unfold Device.deferRun
  split
  · exact putBack_linkSide d _ _
  · rfl

theorem onWindows_linkSide (d : Device) (f : Window → Window) : (d.onWindows f).linkSide = d.linkSide := by
  obtain ⟨ports, e⟩ := onWindows_eq d f
  rw [e]; rfl

theorem giveUpListen_linkSide (d : Device) (s : Fin 32) : (d.giveUpListen s).linkSide = d.linkSide := by
  unfold Device.giveUpListen
  split
  · split
    · rfl
    · rfl
  · rfl

theorem freeRun_linkSide (d : Device) (s : Fin 32) : (d.freeRun s).linkSide = d.linkSide := by
  unfold Device.freeRun
  split
  · rfl
  · exact giveUpListen_linkSide d s

theorem withoutRun_linkSide (d : Device) (i : Fin 256) : (d.withoutRun i).linkSide = d.linkSide := by
  unfold Device.withoutRun
  split
  · rfl
  · exact freeRun_linkSide d _

theorem closeListen_linkSide (d : Device) (s : Fin 32) : (d.closeListen s).linkSide = d.linkSide := by
  unfold Device.closeListen
  split
  · rfl
  split
  · rfl
  · rfl

theorem applyOutcome_linkSide (d : Device) (i : Fin 256) (o : RunOutcome) (l : Option HopList) :
    (d.applyOutcome i o l).linkSide = d.linkSide := by
  unfold Device.applyOutcome
  split
  · rfl
  split
  · rfl
  dsimp only
  refine Eq.trans (attendChange_linkSide _ i _) ?_
  split
  · rfl
  · exact onWindows_linkSide _ _

end Sys2Proof.Machine

/-! SUPPORT. The links stay sound: runs that end, the Arbiter, the calendar and the clock. -/

namespace Sys2Proof.Machine

/-! ### Runs abandoned, hold changes and edits (R12, R17 to R21, R70 to R74, R130) -/

theorem abandonRun_keepsLinks (d : Device) (i : Fin 256) (r : Reason) : d.KeepsLinks (d.abandonRun i r) := by
  unfold Device.abandonRun
  split
  · exact .rfl' d
  split
  · exact .rfl' d
  dsimp only
  refine .before (.trans ?_ (sendOpt_keepsLinks _ _ _)) (freeRun_linkSide _ _)
  split
  · exact .rfl' d
  · exact sendOpt_keepsLinks d _ _

theorem intoDue_keepsLinks (d : Device) (i : Fin 256) : d.KeepsLinks (d.intoDue i) := by
  unfold Device.intoDue
  split
  · exact .rfl' d
  split
  · exact .of_side (enqueue_linkSide d i _ _)
  · exact .before (sendOpt_keepsLinks d _ _) rfl

theorem holdChange_keepsLinks (d : Device) (i : Fin 256) (h : HoldChange) : d.KeepsLinks (d.holdChange i h) := by
  have begins : d.KeepsLinks (d.holdBegins i) := .after (.before (abandonRun_keepsLinks _ i _) rfl) rfl
  have ends : ∀ d : Device, d.KeepsLinks (d.holdEnds i) := fun d => .after (intoDue_keepsLinks _ i) rfl
  unfold Device.holdChange
  dsimp only
  split
  · exact .before begins (attendChange_linkSide _ i _)
  · exact .before (ends d) (attendChange_linkSide _ i _)
  · exact .before (begins.trans (ends _)) (attendChange_linkSide _ i _)
  · exact .rfl' d
  · exact .rfl' d

theorem calendarTakes_keepsLinks (d : Device) (i : Fin 256) : d.KeepsLinks (d.calendarTakes i) := by
  unfold Device.calendarTakes
  split
  · exact .rfl' d
  dsimp only
  split
  · exact .rfl' d
  · exact .after (holdChange_keepsLinks _ i _) rfl

theorem applyEdit_keepsLinks (d : Device) (i : Fin 256) (x : Desc) (path : Bool) :
    d.KeepsLinks (d.applyEdit i x path) := by
  unfold Device.applyEdit
  dsimp only
  split
  · refine .after (calendarTakes_keepsLinks _ i) ?_
    split
    · rfl
    · rfl
  · exact .of_side rfl

theorem judgeStaged_keepsLinks (d : Device) (i : Fin 256) : d.KeepsLinks (d.judgeStaged i) := by
  unfold Device.judgeStaged
  split
  · exact .rfl' d
  split
  · exact .rfl' d
  split
  · exact .rfl' d
  dsimp only
  refine .before ?_ rfl
  split
  · exact .of_side rfl
  · exact .after (applyEdit_keepsLinks _ i _ _) rfl

/-! ### The end of a run and the Arbiter (R94 to R99, R104, R108) -/

theorem dropRun_keepsLinks (d : Device) (s : Fin 32) : d.KeepsLinks (d.dropRun s) := by
  unfold Device.dropRun
  split
  · exact .rfl' d
  · exact .after (judgeStaged_keepsLinks _ _) (freeRun_linkSide d s)

theorem endHead_keepsLinks (d : Device) (s : Fin 32) (f : Finding) (cancel : Bool) :
    d.KeepsLinks (d.endHead s f cancel) := by
  unfold Device.endHead
  split
  · exact .rfl' d
  split
  · exact .rfl' d
  dsimp only
  refine .trans (.before ?_ (freeRun_linkSide _ s)) (judgeStaged_keepsLinks _ _)
  refine .thenIf (.trans (.thenIf ?_ (.of_side (deferRun_linkSide _ s))) (sendOpt_keepsLinks _ _ _))
    (sendOpt_keepsLinks _ _ _)
  refine .before (.thenIf ?_ (.of_side (raiseCheck_linkSide _ _))) (applyOutcome_linkSide _ _ _ _)
  exact .of_side (giveUpListen_linkSide d s)

theorem announceHead_keepsLinks (d : Device) (s : Fin 32) : d.KeepsLinks (d.announceHead s) := by
  unfold Device.announceHead
  split
  · exact .rfl' d
  split
  · exact .rfl' d
  split
  · exact send_keepsLinks d _ _
  · exact endHead_keepsLinks d s _ _

theorem grant_keepsLinks (d : Device) : d.KeepsLinks d.grant := by
  have promoted : d.KeepsLinks d.promote := .of_side rfl
  unfold Device.grant
  dsimp only
  split
  · split
    · exact promoted.trans (.after (announceHead_keepsLinks _ _) rfl)
    · exact promoted
  · exact promoted

theorem preempt_keepsLinks (d : Device) : d.KeepsLinks d.preempt := by
  unfold Device.preempt
  split
  · exact .rfl' d
  split
  · exact .rfl' d
  · exact (sendOpt_keepsLinks d _ _).trans (.after (dropRun_keepsLinks _ _) (putBack_linkSide _ _ _))

theorem grantAll_keepsLinks (fuel : Nat) (judge : Bool) (d : Device) :
    d.KeepsLinks (Device.grantAll fuel judge d) := by
  induction fuel generalizing judge d with
  | zero => exact .rfl' d
  | succ n ih =>
    unfold Device.grantAll
    split
    · exact (grant_keepsLinks d).trans (ih _ _)
    · exact .thenIf (.rfl' d) ((preempt_keepsLinks d).trans (ih _ _))

theorem arbitrate_keepsLinks (before : Device) (judge : Bool) (d : Device) :
    d.KeepsLinks (Device.arbitrate before judge d) := grantAll_keepsLinks _ _ d

/-- R94: an event that ends with the Arbiter's judgement. -/
theorem Device.KeepsLinks.judged {d e : Device} (h : d.KeepsLinks e) (before : Device) (judge : Bool) :
    d.KeepsLinks (Device.arbitrate before judge e) := h.trans (arbitrate_keepsLinks before judge e)

/-! ### The calendar and the clock (R44 to R64) -/

theorem askBaseline_keepsLinks (d : Device) (i : Fin 256) : d.KeepsLinks (d.askBaseline i) := by
  unfold Device.askBaseline
  split
  · exact .rfl' d
  split
  · exact .of_side (enqueue_linkSide d i _ _)
  · exact sendOpt_keepsLinks d _ _

theorem toBaselining_keepsLinks (w : Fin 16) (d : Device) : d.KeepsLinks (d.toBaselining w) := by
  unfold Device.toBaselining
  split
  · exact .rfl' d
  · exact .thenIf (.rfl' d) (.after (.foldl askBaseline_keepsLinks _ _) rfl)

theorem toOpen_keepsLinks (w : Fin 16) (d : Device) : d.KeepsLinks (d.toOpen w) := by
  unfold Device.toOpen
  split
  · exact .rfl' d
  · exact .thenIf (.rfl' d) (.after (.foldl (fun d i => .of_side (onCircuit_linkSide d i _)) _ _) rfl)

/-- R61, R62: the last three transitions of a window touch no link. -/
theorem windowEnds_linkSide (w : Fin 16) (d : Device) :
    (((d.toVerifying w).toDone w).toOverdue w).linkSide = d.linkSide := by
  have verifying : ∀ d : Device, (d.toVerifying w).linkSide = d.linkSide := fun d => by
    unfold Device.toVerifying
    split
    · rfl
    · split
      · rfl
      · rfl
  have done : ∀ d : Device, (d.toDone w).linkSide = d.linkSide := fun d => by
    unfold Device.toDone
    split
    · rfl
    · split
      · rfl
      · rfl
  have overdue : ∀ d : Device, (d.toOverdue w).linkSide = d.linkSide := fun d => by
    unfold Device.toOverdue
    split
    · rfl
    · split
      · rfl
      · rfl
  rw [overdue, done, verifying]

theorem walkWindow_keepsLinks (d : Device) (w : Fin 16) : d.KeepsLinks (d.walkWindow w) :=
  .before ((toBaselining_keepsLinks w d).trans (toOpen_keepsLinks w _)) (windowEnds_linkSide w _)

theorem deliver_keepsLinks (b a : Table (Option Window) 16) (d : Device) (i : Fin 256) :
    d.KeepsLinks (deliver b a d i) := by
  unfold deliver
  dsimp only
  split
  · exact .rfl' d
  · exact holdChange_keepsLinks d i _

theorem evaluate_keepsLinks (d : Device) : d.KeepsLinks d.evaluate :=
  (Device.KeepsLinks.foldl walkWindow_keepsLinks _ d).trans (.foldl (deliver_keepsLinks _ _) _ _)

theorem tick_keepsLinks (d : Device) : d.KeepsLinks d.tick := by
  unfold Device.tick
  split
  · exact .thenIf (.of_side rfl) (.of_side rfl)
  · exact .thenIf (.of_side rfl) (evaluate_keepsLinks _)

theorem endHold_keepsLinks (d : Device) : d.KeepsLinks d.endHold := .after (evaluate_keepsLinks _) rfl

theorem tickTaken_keepsLinks (d : Device) : d.KeepsLinks d.tickTaken := by
  unfold Device.tickTaken
  split
  · exact (tick_keepsLinks d).judged _ _
  · exact tick_keepsLinks d

theorem dividerTick_keepsLinks (d : Device) : d.KeepsLinks d.dividerTick := by
  unfold Device.dividerTick
  split
  · exact .rfl' d
  · exact .after (tickTaken_keepsLinks _) rfl

theorem ppsEdge_keepsLinks (d : Device) : d.KeepsLinks d.ppsEdge := by
  have edge : d.KeepsLinks (d.onClock (·.edge d.now)) := .of_side rfl
  exact (edge.thenIf (.of_side (raiseLine_linkSide _ _))).trans (tickTaken_keepsLinks _)

theorem lineChange_keepsLinks (l : Fin 8) (high : Bool) (d : Device) : d.KeepsLinks (d.lineChange l high) := by
  have changed : d.KeepsLinks { d with lineIn := d.lineIn.set l high } := .of_side rfl
  unfold Device.lineChange
  dsimp only
  split
  · exact changed.trans (ppsEdge_keepsLinks _)
  split
  · exact changed.judged _ _
  · exact changed

theorem ppsExpires_linkSide (d : Device) : d.ppsExpires.linkSide = d.linkSide := by
  unfold Device.ppsExpires
  split
  · rfl
  · rfl

theorem onExpiry_keepsLinks (d : Device) (t : Option Nat) {f : Device → Device}
    (h : ∀ d : Device, d.KeepsLinks (f d)) : d.KeepsLinks (d.onExpiry t f) := by
  unfold Device.onExpiry
  split
  · exact .rfl' d
  · exact .after (h _) rfl

theorem holdExpires_keepsLinks (d : Device) : d.KeepsLinks d.holdExpires :=
  onExpiry_keepsLinks d _ fun _ => ((endHold_keepsLinks _).before (raiseLine_linkSide _ _)).judged _ _

end Sys2Proof.Machine

/-! SUPPORT. The links stay sound: peer messages, what writes the links themselves, and the timers. -/

namespace Sys2Proof.Machine

/-! ### Peer messages (R106 to R126) -/

theorem unlessReset_keepsLinks {f : Device → Device} (h : ∀ d : Device, d.KeepsLinks (f d)) (d : Device) :
    d.KeepsLinks (unlessReset f d) := by
  unfold unlessReset
  split
  · exact .rfl' d
  · exact h d

theorem heard_keepsLinks (d : Device) (g : Fin 4) : d.KeepsLinks (d.heard g) := link_keepsLinks (heard_staysSound _ _)

theorem receive_keepsLinks (g : Fin 4) (m : Message) {f : Device → Device} (h : ∀ d : Device, d.KeepsLinks (f d))
    (d : Device) : d.KeepsLinks (d.receive g m f) :=
  .thenIf (heard_keepsLinks d g) (h _)

theorem onMatched_keepsLinks (d : Device) (cid : Nat) (run : RunId) (side : Run → Option (Fin 4)) (g : Fin 4)
    {f : Fin 32 → Run → Device} (h : ∀ slot r, d.KeepsLinks (f slot r)) :
    d.KeepsLinks (d.onMatched cid run side g f) := by
  unfold Device.onMatched
  split
  · exact .rfl' d
  · exact h _ _

theorem enter_linkSide (d : Device) (slot : Fin 32) (phase : Phase) (wait : Nat) :
    (d.enter slot phase wait).linkSide = d.linkSide := rfl

theorem passAnnounce_keepsLinks (d : Device) (c : Circuit) (run : RunId) (kind : Kind) (dwell : Nat) :
    d.KeepsLinks (d.passAnnounce c run kind dwell) := by
  unfold Device.passAnnounce
  split
  · exact sendOpt_keepsLinks d _ _
  · exact sendOpt_keepsLinks d _ _

theorem accept_keepsLinks (d : Device) (i : Fin 256) (c : Circuit) (run : RunId) (kind : Kind) (dwell : Nat) :
    d.KeepsLinks (d.accept i c run kind dwell) := by
  unfold Device.accept
  dsimp only
  split
  · exact .of_side (withoutRun_linkSide d i)
  · exact .after (passAnnounce_keepsLinks _ _ _ _ _) (withoutRun_linkSide d i)

theorem announced_keepsLinks (g : Fin 4) (cid : Nat) (run : RunId) (kind : Kind) (hop n dwell : Nat) (d : Device) :
    d.KeepsLinks (d.announced g cid run kind hop n dwell) := by
  unfold Device.announced
  split
  · exact send_keepsLinks d _ _
  split
  · exact .rfl' d
  split
  · exact send_keepsLinks d _ _
  · exact .thenIf (accept_keepsLinks d _ _ _ _ _) (arbitrate_keepsLinks _ _ _)

theorem takeArmed_keepsLinks (d : Device) (slot : Fin 32) (r : Run) : d.KeepsLinks (d.takeArmed slot r) := by
  unfold Device.takeArmed
  split
  · exact (sendOpt_keepsLinks d _ _).before (enter_linkSide _ _ _ _)
  · split
    · exact .rfl' d
    · exact .of_side rfl
  · exact .rfl' d

theorem report_keepsLinks (d : Device) (slot : Fin 32) (r : Run) (truncated : Bool) (hops : List HopResult) :
    d.KeepsLinks (d.report slot r truncated hops) :=
  (sendOpt_keepsLinks d _ _).before (enter_linkSide _ _ _ _)

theorem takeStop_keepsLinks (d : Device) (slot : Fin 32) (r : Run) : d.KeepsLinks (d.takeStop slot r) := by
  unfold Device.takeStop
  split
  · exact ((sendOpt_keepsLinks d _ _).before (closeListen_linkSide _ _)).before (enter_linkSide _ _ _ _)
  · exact .after (report_keepsLinks _ _ _ _ _) (closeListen_linkSide d _)
  · exact .rfl' d

theorem endOnList_keepsLinks (d : Device) (slot : Fin 32) (r : Run) (l : HopList) :
    d.KeepsLinks (d.endOnList slot r l) := .after (endHead_keepsLinks _ _ _ _) rfl

theorem reportArrives_keepsLinks (g : Fin 4) (cid : Nat) (run : RunId) (truncated : Bool) (hops : List HopResult)
    (d : Device) : d.KeepsLinks (d.reportArrives g cid run truncated hops) :=
  onMatched_keepsLinks d cid run _ g fun slot r => by
    split
    · exact .rfl' d
    split
    · exact report_keepsLinks d _ _ _ _
    · exact (endOnList_keepsLinks d _ _ _).judged _ _
    · exact .rfl' d

theorem takeRefuse_keepsLinks (d : Device) (slot : Fin 32) (r : Run) (hop : Nat) (reason : Reason) :
    d.KeepsLinks (d.takeRefuse slot r hop reason) := by
  unfold Device.takeRefuse
  split
  · exact endHead_keepsLinks d _ _ _
  · dsimp only
    split
    · exact sendOpt_keepsLinks d _ _
    · exact ((sendOpt_keepsLinks d _ _).before (giveUpListen_linkSide _ _)).before (enter_linkSide _ _ _ _)
  · exact .rfl' d

theorem cancelDown_keepsLinks (d : Device) (slot : Fin 32) (r : Run) : d.KeepsLinks (d.cancelDown slot r) :=
  (sendOpt_keepsLinks d _ _).trans (dropRun_keepsLinks _ _)

theorem outcomeArrives_keepsLinks (g : Fin 4) (o : RunOutcome) (d : Device) :
    d.KeepsLinks (d.outcomeArrives g o) := by
  unfold Device.outcomeArrives
  split
  · unfold Device.passOutcome
    split
    · exact .rfl' d
    · exact .thenIf (.rfl' d) (sendOpt_keepsLinks d _ _)
  · refine Device.KeepsLinks.judged (.trans ?_ (dropRun_keepsLinks _ _)) _ _
    exact (sendOpt_keepsLinks d _ _).before (applyOutcome_linkSide _ _ _ _)

theorem requestArrives_keepsLinks (g : Fin 4) (cid : Nat) (kind : Kind) (d : Device) :
    d.KeepsLinks (d.requestArrives g cid kind) := by
  unfold Device.requestArrives
  split
  · exact .rfl' d
  split
  · exact .rfl' d
  refine .thenIf (.rfl' d) ?_
  unfold Device.takeRequest
  split
  · exact (Device.KeepsLinks.of_side (enqueue_linkSide d _ _ _)).judged _ _
  · exact sendOpt_keepsLinks d _ _
  · exact .rfl' d

/-- R149: whatever the Run Engine does with a message, it hands messages to links and writes none otherwise. -/
theorem dispatch_keepsLinks (g : Fin 4) (m : Message) (d : Device) : d.KeepsLinks (d.dispatch g m) := by
  cases m with
  | announce cid run kind hop n dwell => exact announced_keepsLinks g cid run kind hop n dwell d
  | armed cid run => exact onMatched_keepsLinks d cid run _ g fun slot r => takeArmed_keepsLinks d slot r
  | stop cid run =>
    exact onMatched_keepsLinks d cid run _ g fun slot r => .thenIf (.rfl' d) ((takeStop_keepsLinks d slot r).judged _ _)
  | report cid run truncated hops => exact reportArrives_keepsLinks g cid run truncated hops d
  | refuse cid run hop reason =>
    exact onMatched_keepsLinks d cid run _ g fun slot r => (takeRefuse_keepsLinks d slot r hop reason).judged _ _
  | cancel cid run =>
    exact onMatched_keepsLinks d cid run _ g fun slot r => (cancelDown_keepsLinks d slot r).judged _ _
  | outcome o => exact outcomeArrives_keepsLinks g o d
  | request cid kind => exact requestArrives_keepsLinks g cid kind d

/-! ### Links (R127, R128, R147 to R158) -/

theorem loseDown_keepsLinks (d : Device) (slot : Fin 32) (r : Run) : d.KeepsLinks (d.loseDown slot r) := by
  unfold Device.loseDown
  split
  · exact (sendOpt_keepsLinks d _ _).trans (dropRun_keepsLinks _ _)
  · exact (sendOpt_keepsLinks d _ _).trans (dropRun_keepsLinks _ _)
  · exact report_keepsLinks d _ _ _ _
  · exact .rfl' d
  · exact endHead_keepsLinks d _ _ _
  · exact endHead_keepsLinks d _ _ _
  · exact endHead_keepsLinks d _ _ _

theorem linkLost_keepsLinks (d : Device) (g : Fin 4) : d.KeepsLinks (d.linkLost g) := by
  refine Device.KeepsLinks.judged (.foldl (fun d slot => ?_) _ d) _ _
  unfold Device.loseLink
  split
  · exact .rfl' d
  split
  · exact cancelDown_keepsLinks d _ _
  · exact .thenIf (.rfl' d) (loseDown_keepsLinks d _ _)

theorem linkWithPlant_keepsLinks {d : Device} {g : Fin 4} {f : Link → Link}
    (h : (d.links.get g).StaysSound (f (d.links.get g))) : d.KeepsLinks (d.linkWithPlant g f) := by
  unfold Device.linkWithPlant
  dsimp only
  split
  · exact link_keepsLinks h
  · exact (link_keepsLinks h).before (raiseLine_linkSide _ _)

theorem miswire_keepsLinks {d : Device} {g : Fin 4} (enabled : (d.links.get g).state ≠ .disabled)
    (node degree accepting : Nat) : d.KeepsLinks (d.miswire g node degree accepting) :=
  (linkWithPlant_keepsLinks (miswire_staysSound _ enabled)).before (raiseCheck_linkSide _ _)

theorem helloAgreed_keepsLinks (d : Device) (g : Fin 4) : d.KeepsLinks (d.helloAgreed g) := by
  unfold Device.helloAgreed
  split
  next disabled => exact .rfl' d
  next down => exact linkWithPlant_keepsLinks (probe_staysSound _ down)
  next probing => exact linkWithPlant_keepsLinks (agree_staysSound (by rw [probing]; rfl))
  next up => exact .rfl' d
  next miswired => exact linkWithPlant_keepsLinks (agree_staysSound (by rw [miswired]; rfl))

theorem helloDisagreed_keepsLinks (d : Device) (g : Fin 4) (node degree accepting : Nat) :
    d.KeepsLinks (d.helloDisagreed g node degree accepting) := by
  have miswired : (d.links.get g).state ≠ .disabled → d.KeepsLinks (d.miswire g node degree accepting) :=
    fun enabled => miswire_keepsLinks enabled _ _ _
  unfold Device.helloDisagreed
  split
  next disabled => exact .rfl' d
  next down => exact miswired (by simp [down])
  next probing => exact miswired (by simp [probing])
  next up => exact (miswired (by simp [up])).trans (linkLost_keepsLinks _ g)
  next =>
    exact link_keepsLinks fun ⟨silence, queue, few, _⟩ => ⟨⟨silence, queue, few, Nat.zero_le 3⟩, id⟩

theorem helloArrives_keepsLinks (g : Fin 4) (node degree : Nat) (d : Device) :
    d.KeepsLinks (d.helloArrives g node degree) := by
  have seen : d.KeepsLinks ((d.heard g).link g (·.see node degree)) :=
    (heard_keepsLinks d g).trans (link_keepsLinks (.of_fields rfl rfl rfl rfl))
  unfold Device.helloArrives
  split
  · exact .rfl' d
  dsimp only
  split
  · split
    · exact seen.trans (helloAgreed_keepsLinks _ g)
    · exact seen.trans (helloDisagreed_keepsLinks _ g _ _ _)
  · exact heard_keepsLinks d g

theorem silencePasses_keepsLinks (g : Fin 4) (d : Device) : d.KeepsLinks (d.silencePasses g) := by
  unfold Device.silencePasses Device.onExpiry
  split
  next => exact .rfl' d
  next t deadline =>
    have lost : (d.reach t).KeepsLinks ((d.reach t).linkWithPlant g Link.goDown) :=
      linkWithPlant_keepsLinks (goDown_staysSound deadline)
    exact .after (.thenIf lost (linkLost_keepsLinks _ g)) rfl

theorem helloDue_keepsLinks (g : Fin 4) (d : Device) : d.KeepsLinks (d.helloDue g) := by
  unfold Device.helloDue
  dsimp only
  split
  · exact .rfl' d
  · exact .after (link_keepsLinks (.of_fields rfl rfl rfl rfl)) rfl

theorem takeFrame_keepsLinks (g : Fin 4) (bytes : List Byte) (d : Device) : d.KeepsLinks (d.takeFrame g bytes) := by
  unfold Device.takeFrame
  split
  · exact .rfl' d
  split
  · exact heard_keepsLinks d g
  · exact helloArrives_keepsLinks g _ _ d
  · exact receive_keepsLinks g _ (dispatch_keepsLinks g _) d

theorem framesArrive_keepsLinks (g : Fin 4) (bytes : List Byte) (d : Device) :
    d.KeepsLinks (d.framesArrive g bytes) :=
  .foldl (fun d rest => unlessReset_keepsLinks (takeFrame_keepsLinks g rest) d) _ d

/-! ### The timers of the runs and of the records, and the Arbiter's instants (R75, R94, R98, R115 to R124) -/

theorem onWaitIn_keepsLinks (slot : Fin 32) (runs : Run → Bool) {f : Device → Run → Device}
    (h : ∀ (d : Device) r, d.KeepsLinks (f d r)) (d : Device) : d.KeepsLinks (d.onWaitIn slot runs f) := by
  unfold Device.onWaitIn
  split
  · exact .rfl' d
  · exact .thenIf (.rfl' d) (.after (h _ _) rfl)

theorem armedExpires_keepsLinks (d : Device) (slot : Fin 32) (r : Run) : d.KeepsLinks (d.armedExpires slot r) := by
  unfold Device.armedExpires
  split
  · exact endHead_keepsLinks d _ _ _
  · exact (sendOpt_keepsLinks d _ _).trans (cancelDown_keepsLinks _ _ _)

theorem dwellEnds_keepsLinks (d : Device) (slot : Fin 32) (r : Run) : d.KeepsLinks (d.dwellEnds slot r) :=
  .before (.before (.after (sendOpt_keepsLinks (d.freeInjectorOf slot) _ _) rfl) (closeListen_linkSide _ _))
    (enter_linkSide _ _ _ _)

theorem reportExpires_keepsLinks (d : Device) (slot : Fin 32) (r : Run) : d.KeepsLinks (d.reportExpires slot r) := by
  unfold Device.reportExpires
  split
  · exact (endOnList_keepsLinks d _ _ _).judged _ _
  · exact report_keepsLinks d _ _ _ _

theorem requestTimer_keepsLinks (i : Fin 256) (d : Device) : d.KeepsLinks (d.requestTimer i) := by
  unfold Device.requestTimer
  split
  · exact .rfl' d
  refine onExpiry_keepsLinks d _ fun d => ?_
  unfold Device.requestExpires
  split
  · exact (sendOpt_keepsLinks d _ _).before (onCircuit_linkSide _ _ _)
  · exact .after (judgeStaged_keepsLinks _ i) (attendChange_linkSide _ i _)

theorem eligiblePasses_keepsLinks (i : Fin 256) (kind : Kind) (d : Device) :
    d.KeepsLinks (d.eligiblePasses i kind) := by
  unfold Device.eligiblePasses
  split
  · exact .rfl' d
  · exact onExpiry_keepsLinks d _ fun d => arbitrate_keepsLinks d _ d

theorem preemptPasses_keepsLinks (i : Fin 256) (kind : Kind) (d : Device) :
    d.KeepsLinks (d.preemptPasses i kind) := by
  unfold Device.preemptPasses
  split
  · exact .rfl' d
  · exact .thenIf (.rfl' d) (.after (arbitrate_keepsLinks _ _ _) rfl)

end Sys2Proof.Machine

/-! SUPPORT. The links stay sound: the client commands, every command and every step. -/

namespace Sys2Proof.Machine

/-! ### The client commands that touch no link (R164 to R175, R191) -/

theorem transaction_linkSide (p : Fin 4) (clocked : Nat) (d : Device) :
    (d.transaction p clocked).linkSide = d.linkSide := by
  unfold Device.transaction
  split
  · rfl
  · rfl

theorem seek_linkSide (p : Fin 4) (body : List Byte) (d : Device) : (d.seek p body).linkSide = d.linkSide := by
  unfold Device.seek
  split
  · rfl
  dsimp only
  split
  · rfl
  · rfl

theorem read_linkSide (p : Fin 4) (d : Device) : (d.read p).linkSide = d.linkSide := by
  unfold Device.read
  dsimp only
  split
  · rfl
  · rfl

theorem ackAttention_linkSide (p : Fin 4) (body : List Byte) (d : Device) :
    (d.ackAttention p body).linkSide = d.linkSide := by
  unfold Device.ackAttention
  split
  · rfl
  · rfl

theorem setNotify_linkSide (p : Fin 4) (body : List Byte) (d : Device) :
    (d.setNotify p body).linkSide = d.linkSide := by
  unfold Device.setNotify
  split
  · rfl
  · rfl

theorem clearCheck_linkSide (p : Fin 4) (d : Device) : (d.clearCheck p).linkSide = d.linkSide := by
  unfold Device.clearCheck Device.dropCleared
  split
  · rfl
  split
  · rfl
  split
  · rfl
  · rfl

theorem onNamed_linkSide (d : Device) (p : Fin 4) (code : Nat) (right : Right) (body : List Byte)
    {act : Fin 256 → Circuit → Device} (h : ∀ i c, (act i c).linkSide = d.linkSide) :
    (d.onNamed p code right body act).linkSide = d.linkSide := by
  unfold Device.onNamed
  split
  · rfl
  split
  · exact h _ _
  · rfl

theorem permitRequested_linkSide (p : Fin 4) (body : List Byte) (d : Device) :
    (d.permitRequested p body).linkSide = d.linkSide := by
  unfold Device.permitRequested
  split
  · rfl
  · exact onNamed_linkSide d p _ _ body fun i c => attendChange_linkSide _ i _

theorem commitBaseline_linkSide (p : Fin 4) (body : List Byte) (d : Device) :
    (d.commitBaseline p body).linkSide = d.linkSide :=
  onNamed_linkSide d p _ _ body fun i c => by
    split
    · rfl
    · rfl

theorem discardBaseline_linkSide (p : Fin 4) (body : List Byte) (d : Device) :
    (d.discardBaseline p body).linkSide = d.linkSide :=
  onNamed_linkSide d p _ _ body fun i c => by
    split
    · rfl
    · rfl

theorem scheduleWindow_linkSide (p : Fin 4) (body : List Byte) (d : Device) :
    (d.scheduleWindow p body).linkSide = d.linkSide := by
  unfold Device.scheduleWindow
  split
  · rfl
  split
  · rfl
  split
  · rfl
  · rfl

theorem holdClock_linkSide (p : Fin 4) (d : Device) : (d.holdClock p).linkSide = d.linkSide := by
  unfold Device.holdClock
  split
  · rfl
  · rfl

theorem setClock_linkSide (p : Fin 4) (body : List Byte) (d : Device) :
    (d.setClock p body).linkSide = d.linkSide := by
  unfold Device.setClock
  dsimp only
  split
  · rfl
  split
  · rfl
  · rfl

theorem putTap_linkSide (d : Device) (t : Fin 16) (n : TapSettings) : (d.putTap t n).linkSide = d.linkSide := by
  unfold Device.putTap
  dsimp only
  split
  · rfl
  · rfl

theorem tapReadings_linkSide (readings : Table Int 16) (d : Device) :
    (d.tapReadings readings).linkSide = d.linkSide := by
  unfold Device.tapReadings
  dsimp only
  split
  · rfl
  · rfl

theorem storeConfig_linkSide (p : Fin 4) (d : Device) : (d.storeConfig p).linkSide = d.linkSide := by
  unfold Device.storeConfig
  split
  · rfl
  split
  · rfl
  · rfl

theorem storeEnds_linkSide (stage : Option (Fin 5)) (d : Device) : (d.storeEnds stage).linkSide = d.linkSide := by
  unfold Device.storeEnds
  split
  · rfl
  split
  · rfl
  · exact raiseCheck_linkSide _ _

theorem setNodeId_linkSide (p : Fin 4) (body : List Byte) (d : Device) :
    (d.setNodeId p body).linkSide = d.linkSide := by
  unfold Device.setNodeId
  dsimp only
  split
  · rfl
  · rfl

/-! ### The client commands that may hand messages to links -/

theorem onNamed_keepsLinks (d : Device) (p : Fin 4) (code : Nat) (right : Right) (body : List Byte)
    {act : Fin 256 → Circuit → Device} (h : ∀ i c, d.KeepsLinks (act i c)) :
    d.KeepsLinks (d.onNamed p code right body act) := by
  unfold Device.onNamed
  split
  · exact .of_side rfl
  split
  · exact h _ _
  · exact .of_side rfl

theorem create_keepsLinks (d : Device) (i : Fin 256) (c : Circuit) : d.KeepsLinks (d.create i c) := by
  have taken : d.KeepsLinks (Device.calendarTakes { d with circuits := d.circuits.set i (some c) } i) :=
    .after (calendarTakes_keepsLinks _ i) rfl
  exact taken.before rfl

theorem register_keepsLinks (p : Fin 4) (body : List Byte) (d : Device) : d.KeepsLinks (d.register p body) := by
  unfold Device.register
  split
  · exact .of_side rfl
  split
  · exact .of_side rfl
  · exact (create_keepsLinks d _ _).before (respond_linkSide _ p _ _ _)

theorem edit_keepsLinks (p : Fin 4) (body : List Byte) (d : Device) : d.KeepsLinks (d.edit p body) := by
  unfold Device.edit
  split
  · exact .of_side rfl
  refine onNamed_keepsLinks d p _ _ body fun i c => ?_
  split
  · exact .of_side rfl
  next changes x _ =>
  have applied : ∀ path, d.KeepsLinks ((d.applyEdit i x path).respond p 0x11 rcOk []) := fun path =>
    (applyEdit_keepsLinks d i x path).before (respond_linkSide _ p _ _ _)
  unfold Device.acceptEdit
  dsimp only
  split
  · exact .thenIf (applied _) (arbitrate_keepsLinks _ _ _)
  split
  · exact applied false
  · exact .of_side rfl

theorem remove_keepsLinks (d : Device) (i : Fin 256) (owner : Owner) : d.KeepsLinks (d.remove i owner) :=
  .before (.before (.after (abandonRun_keepsLinks (d.removeEntries i) i _) rfl) (onWindows_linkSide _ _)) rfl

theorem delete_keepsLinks (p : Fin 4) (body : List Byte) (d : Device) : d.KeepsLinks (d.delete p body) :=
  onNamed_keepsLinks d p _ _ body fun i c =>
    ((remove_keepsLinks d i c.owner).before (respond_linkSide _ p _ _ _)).judged _ _

theorem confirmed_keepsLinks (d : Device) (i : Fin 256) (c : Circuit) : d.KeepsLinks (d.confirmed i c) := by
  have served := attendChange_linkSide (d.onCircuit i fun c => { c with service := .inService }) i (some c)
  unfold Device.confirmed
  dsimp only
  split
  · exact .of_side served
  · exact (Device.KeepsLinks.after (judgeStaged_keepsLinks _ i) served).judged _ _

theorem confirm_keepsLinks (p : Fin 4) (body : List Byte) (d : Device) : d.KeepsLinks (d.confirm p body) :=
  onNamed_keepsLinks d p _ _ body fun i c => by
    split
    · exact .after (confirmed_keepsLinks _ i c) (respond_linkSide d p _ _ _)
    · exact .of_side rfl

theorem askRun_keepsLinks (d : Device) (p : Fin 4) (code : Nat) (i : Fin 256) (c : Circuit) (k : Kind)
    (cls : QClass) : d.KeepsLinks (d.askRun p code i c k cls) := by
  unfold Device.askRun
  split
  · exact .of_side rfl
  split
  · exact ((Device.KeepsLinks.of_side (enqueue_linkSide d i k cls)).before (respond_linkSide _ p _ _ _)).judged _ _
  · exact (sendOpt_keepsLinks d _ _).before (respond_linkSide _ p _ _ _)

theorem verify_keepsLinks (p : Fin 4) (body : List Byte) (d : Device) : d.KeepsLinks (d.verify p body) := by
  unfold Device.verify
  split
  · exact .of_side rfl
  refine onNamed_keepsLinks d p _ _ body fun i c => ?_
  split
  · exact askRun_keepsLinks d p _ i c _ _
  · exact .of_side rfl

theorem onWindow_keepsLinks (d : Device) (p : Fin 4) (code : Nat) (body : List Byte)
    {act : Fin 16 → Window → Device} (h : ∀ w x, d.KeepsLinks (act w x)) :
    d.KeepsLinks (d.onWindow p code body act) := by
  unfold Device.onWindow
  split
  · split
    · exact .of_side rfl
    · exact h _ _
  · exact .of_side rfl

theorem extendWindow_keepsLinks (p : Fin 4) (body : List Byte) (d : Device) :
    d.KeepsLinks (d.extendWindow p body) :=
  onWindow_keepsLinks d p _ body fun w x => by
    dsimp only
    split
    · exact .of_side rfl
    split
    · exact .of_side rfl
    · exact .of_side rfl

theorem closeWindow_keepsLinks (p : Fin 4) (body : List Byte) (d : Device) : d.KeepsLinks (d.closeWindow p body) :=
  onWindow_keepsLinks d p _ body fun w x => by
    split
    · exact .of_side rfl
    dsimp only
    split
    · exact .of_side rfl
    · exact .judged (.after (evaluate_keepsLinks _) (by rfl)) _ _

theorem withdrawWindow_keepsLinks (p : Fin 4) (body : List Byte) (d : Device) :
    d.KeepsLinks (d.withdrawWindow p body) :=
  onWindow_keepsLinks d p _ body fun w x => by
    split
    · exact .of_side rfl
    · exact .of_side rfl

theorem releaseClock_keepsLinks (p : Fin 4) (d : Device) : d.KeepsLinks (d.releaseClock p) := by
  unfold Device.releaseClock
  split
  · exact .judged (.after (endHold_keepsLinks _) (respond_linkSide d p _ _ _)) _ _
  · exact .of_side rfl

theorem alignClock_keepsLinks (p : Fin 4) (d : Device) : d.KeepsLinks (d.alignClock p) := by
  unfold Device.alignClock
  split
  · exact .of_side rfl
  · exact .judged (.after (evaluate_keepsLinks _) (by rfl)) _ _

theorem setTap_keepsLinks (p : Fin 4) (body : List Byte) (d : Device) : d.KeepsLinks (d.setTap p body) := by
  unfold Device.setTap
  split
  · split
    · exact .of_side rfl
    dsimp only
    split
    · exact ((Device.KeepsLinks.of_side (putTap_linkSide d _ _)).before (respond_linkSide _ p _ _ _)).judged _ _
    · exact .of_side rfl
  · exact .of_side rfl

/-! ### The configuration and the resets (R178, R179, R181) -/

/-- R179: CONFIGURE enables links on an UNCONFIGURED part alone, and none while the part is in reset. -/
theorem configure_keepsLinks (p : Fin 4) (body : List Byte) {d : Device} (rst : d.rst = false) :
    d.KeepsLinks (d.configure p body) := by
  unfold Device.configure
  split
  · exact .of_side rfl
  next unconfigured =>
  split
  · exact .of_side rfl
  next im _ =>
  have none : d.running = none := by simpa [Device.configured] using unconfigured
  have applied : d.KeepsLinks (d.applyImage im) := fun sound => applyImage_linksSound im sound none rst
  exact applied.thenIf (.of_side (respond_linkSide _ p _ _ _))

/-- R178: a load ends with no image in force, or enables links with an image; a load is in progress on an UNCONFIGURED
part alone. -/
theorem loadEnds_keepsLinks (bytes : Option (List Byte)) {d : Device} (rst : d.rst = false) :
    d.KeepsLinks (d.loadEnds bytes) := by
  rintro ⟨each, disabled, held⟩
  unfold Device.loadEnds
  split
  · exact ⟨each, disabled, held⟩
  next loading =>
  have none : d.running = none := held (.inl (by simpa using loading))
  split
  · exact ⟨each, disabled, fun _ => none⟩
  · exact applyImage_linksSound _ ⟨each, disabled, held⟩ none rst

/-- R178: the RST line released: the part is UNCONFIGURED as the reset left it, and its load begins. -/
theorem releaseReset_keepsLinks (d : Device) : d.KeepsLinks d.releaseReset := by
  unfold Device.releaseReset
  split
  next asserted => exact fun ⟨each, disabled, held⟩ => ⟨each, disabled, fun _ => held (.inr asserted)⟩
  next => exact .rfl' d

/-! ### Every command and every step -/

/-- R162, R178: a request reaches its block outside reset alone. -/
theorem request_keepsLinks (r : CommandRule) (p : Fin 4) (ok : Bool) {act : Device → Device}
    (h : ∀ d : Device, d.rst = false → d.KeepsLinks (act d)) (d : Device) :
    d.KeepsLinks (d.request r p ok act) := by
  unfold Device.request
  split
  · exact .rfl' d
  next served =>
  split
  · exact .of_side (port_linkSide d p _)
  split
  · exact .of_side (respond_linkSide d p _ _ _)
  · refine h d ?_
    simp only [Bool.or_eq_true, not_or, Bool.not_eq_true] at served
    exact served.1

/-- A request of a command that keeps the links sound in any part. -/
theorem request_keeping (r : CommandRule) (p : Fin 4) (ok : Bool) {act : Device → Device}
    (h : ∀ d : Device, d.KeepsLinks (act d)) (d : Device) : d.KeepsLinks (d.request r p ok act) :=
  request_keepsLinks r p ok (fun d _ => h d) d

/-- A request of a command that touches no link. -/
theorem request_linkless (r : CommandRule) (p : Fin 4) (ok : Bool) {act : Device → Device}
    (h : ∀ d : Device, (act d).linkSide = d.linkSide) (d : Device) : d.KeepsLinks (d.request r p ok act) :=
  request_keeping r p ok (fun d => .of_side (h d)) d

/-- R164: a request with any code keeps the links sound. -/
theorem execute_keepsLinks (p : Fin 4) (code : Nat) (body : List Byte) (d : Device) :
    d.KeepsLinks (d.execute p code body) := by
  unfold Device.execute
  split
  · exact request_linkless _ p _ (fun d => respond_linkSide d p _ _ _) d
  · exact request_linkless _ p _ (seek_linkSide p body) d
  · exact request_linkless _ p _ (read_linkSide p) d
  · exact request_linkless _ p _ (fun _ => by rfl) d
  · exact request_linkless _ p _ (ackAttention_linkSide p body) d
  · exact request_linkless _ p _ (setNotify_linkSide p body) d
  · exact request_linkless _ p _ (clearCheck_linkSide p) d
  · exact request_linkless _ p _ (fun _ => by rfl) d
  · exact request_keeping _ p _ (register_keepsLinks p body) d
  · exact request_keeping _ p _ (edit_keepsLinks p body) d
  · exact request_keeping _ p _ (delete_keepsLinks p body) d
  · exact request_linkless _ p _ (permitRequested_linkSide p body) d
  · exact request_keeping _ p _ (confirm_keepsLinks p body) d
  · exact request_keeping _ p _ (verify_keepsLinks p body) d
  · exact request_keeping _ p _ (fun d => onNamed_keepsLinks d p _ _ body fun i c => askRun_keepsLinks d p _ i c _ _) d
  · exact request_linkless _ p _ (commitBaseline_linkSide p body) d
  · exact request_linkless _ p _ (discardBaseline_linkSide p body) d
  · exact request_linkless _ p _ (fun d => onNamed_linkSide d p _ _ body fun _ _ => by rfl) d
  · exact request_linkless _ p _ (scheduleWindow_linkSide p body) d
  · exact request_keeping _ p _ (extendWindow_keepsLinks p body) d
  · exact request_keeping _ p _ (closeWindow_keepsLinks p body) d
  · exact request_keeping _ p _ (withdrawWindow_keepsLinks p body) d
  · exact request_linkless _ p _ (holdClock_linkSide p) d
  · exact request_keeping _ p _ (releaseClock_keepsLinks p) d
  · exact request_linkless _ p _ (setClock_linkSide p body) d
  · exact request_keeping _ p _ (alignClock_keepsLinks p) d
  · exact request_keeping _ p _ (setTap_keepsLinks p body) d
  · exact request_keepsLinks _ p _ (fun _ rst => configure_keepsLinks p body rst) d
  · exact request_linkless _ p _ (storeConfig_linkSide p) d
  · exact request_linkless _ p _ (setNodeId_linkSide p body) d
  · exact request_keeping _ p _ (fun _ _ => reset_linksSound rfl rfl) d
  · exact .of_side (respond_linkSide d p _ _ _)

theorem undecoded_keepsLinks (p : Fin 4) (bytes : List Byte) (d : Device) : d.KeepsLinks (d.undecoded p bytes) := by
  unfold Device.undecoded
  split
  · exact .rfl' d
  split
  · exact .of_side (port_linkSide d p _)
  split
  · exact .of_side (respond_linkSide d p _ _ _)
  · exact execute_keepsLinks p _ _ d

/-- A command that acts on the part by an operation that keeps the links sound. -/
theorem on_keepsLinks {s t : State} {f : Device → Device} (h : s.on f = .next t)
    (k : ∀ d : Device, d.KeepsLinks (f d)) : s.dev.KeepsLinks t.dev := by
  cases h
  exact k s.dev

/-- As `on_keepsLinks`, for a command that finds nothing to act on while the part is in reset. -/
theorem onReset_keepsLinks {s t : State} {f : Device → Device} (h : s.on (unlessReset f) = .next t)
    (k : ∀ d : Device, d.KeepsLinks (f d)) : s.dev.KeepsLinks t.dev :=
  on_keepsLinks h (unlessReset_keepsLinks k)

/-- R149: a message on a link is handed over as `Device.dispatch` has it. -/
theorem message_keepsLinks {s t : State} {g : Fin 4} (m : Message)
    (h : s.on (unlessReset (Device.receive g m (Device.dispatch g m))) = .next t) : s.dev.KeepsLinks t.dev :=
  onReset_keepsLinks h (receive_keepsLinks g m (dispatch_keepsLinks g m))

/-- R104: an expiry of a run's timer, with the Arbiter's judgement at its end. -/
theorem wait_keepsLinks {s t : State} {slot : Fin 32} {runs : Run → Bool} {f : Device → Run → Device}
    (h : s.on (unlessReset (Device.onWaitIn slot runs fun d r => Device.arbitrate d false (f d r))) = .next t)
    (k : ∀ (d : Device) r, d.KeepsLinks (f d r)) : s.dev.KeepsLinks t.dev :=
  onReset_keepsLinks h (onWaitIn_keepsLinks slot runs fun d r => (k d r).judged _ _)

theorem loadEnd_keepsLinks {s t : State} {bytes : Option (List Byte)} (h : execLoadEnd bytes s = .next t) :
    s.dev.KeepsLinks t.dev :=
  on_keepsLinks h fun d => by
    unfold unlessReset
    split
    · exact .rfl' d
    next outside => exact loadEnds_keepsLinks bytes (Bool.eq_false_iff.mpr outside)

theorem exec_keepsLinks (c : Instr) (s t : State) (h : exec c s = .next t) : s.dev.KeepsLinks t.dev := by
  cases c with
  | spiTransaction p clocked => exact on_keepsLinks h fun d => .of_side (transaction_linkSide p clocked d)
  | undecodedRequest p bytes => exact on_keepsLinks h (undecoded_keepsLinks p bytes)
  | status p body => exact on_keepsLinks h (execute_keepsLinks p 0x01 body)
  | seek p body => exact on_keepsLinks h (execute_keepsLinks p 0x02 body)
  | read p body => exact on_keepsLinks h (execute_keepsLinks p 0x03 body)
  | readChanges p body => exact on_keepsLinks h (execute_keepsLinks p 0x04 body)
  | ackAttention p body => exact on_keepsLinks h (execute_keepsLinks p 0x05 body)
  | setNotify p body => exact on_keepsLinks h (execute_keepsLinks p 0x06 body)
  | clearCheck p body => exact on_keepsLinks h (execute_keepsLinks p 0x07 body)
  | portReset p body => exact on_keepsLinks h (execute_keepsLinks p 0x08 body)
  | registerCircuit p body => exact on_keepsLinks h (execute_keepsLinks p 0x10 body)
  | editCircuit p body => exact on_keepsLinks h (execute_keepsLinks p 0x11 body)
  | deleteCircuit p body => exact on_keepsLinks h (execute_keepsLinks p 0x12 body)
  | requestPermit p body => exact on_keepsLinks h (execute_keepsLinks p 0x13 body)
  | confirm p body => exact on_keepsLinks h (execute_keepsLinks p 0x14 body)
  | verify p body => exact on_keepsLinks h (execute_keepsLinks p 0x18 body)
  | baseline p body => exact on_keepsLinks h (execute_keepsLinks p 0x19 body)
  | commitBaseline p body => exact on_keepsLinks h (execute_keepsLinks p 0x1A body)
  | discardBaseline p body => exact on_keepsLinks h (execute_keepsLinks p 0x1B body)
  | clearBaseline p body => exact on_keepsLinks h (execute_keepsLinks p 0x1C body)
  | scheduleWindow p body => exact on_keepsLinks h (execute_keepsLinks p 0x20 body)
  | extendWindow p body => exact on_keepsLinks h (execute_keepsLinks p 0x21 body)
  | closeWindow p body => exact on_keepsLinks h (execute_keepsLinks p 0x22 body)
  | withdrawWindow p body => exact on_keepsLinks h (execute_keepsLinks p 0x23 body)
  | holdClock p body => exact on_keepsLinks h (execute_keepsLinks p 0x28 body)
  | releaseClock p body => exact on_keepsLinks h (execute_keepsLinks p 0x29 body)
  | setClock p body => exact on_keepsLinks h (execute_keepsLinks p 0x2A body)
  | alignClock p body => exact on_keepsLinks h (execute_keepsLinks p 0x2B body)
  | setTap p body => exact on_keepsLinks h (execute_keepsLinks p 0x30 body)
  | configure p body => exact on_keepsLinks h (execute_keepsLinks p 0x38 body)
  | storeConfig p body => exact on_keepsLinks h (execute_keepsLinks p 0x39 body)
  | storeEnd stage => exact onReset_keepsLinks h fun d => .of_side (storeEnds_linkSide stage d)
  | setNodeId p body => exact on_keepsLinks h (execute_keepsLinks p 0x3A body)
  | restart p body => exact on_keepsLinks h (execute_keepsLinks p 0x3B body)
  | powerOnReset => exact on_keepsLinks h fun _ _ => reset_linksSound rfl rfl
  | rstAsserted => exact on_keepsLinks h fun _ _ => reset_linksSound rfl rfl
  | rstReleased => exact on_keepsLinks h releaseReset_keepsLinks
  | loadEnd bytes => exact loadEnd_keepsLinks h
  | clockTick => exact on_keepsLinks h dividerTick_keepsLinks
  | ppsEdge line high => exact on_keepsLinks h (lineChange_keepsLinks line high)
  | ppsLost => exact onReset_keepsLinks h fun d => .of_side (ppsExpires_linkSide d)
  | holdLimit => exact onReset_keepsLinks h holdExpires_keepsLinks
  | requestTimer i => exact onReset_keepsLinks h (requestTimer_keepsLinks i)
  | tapReading readings => exact onReset_keepsLinks h fun d => .of_side (tapReadings_linkSide readings d)
  | codeFrame tap channel word level => exact onReset_keepsLinks h fun _ => .of_side rfl
  | freezeInChange line high => exact on_keepsLinks h (lineChange_keepsLinks line high)
  | eligibleAfter i kind => exact onReset_keepsLinks h (eligiblePasses_keepsLinks i kind)
  | preemptTime i kind => exact onReset_keepsLinks h (preemptPasses_keepsLinks i kind)
  | announce g cid run kind hop n dwell => exact message_keepsLinks (.announce cid run kind hop n dwell) h
  | armed g cid run => exact message_keepsLinks (.armed cid run) h
  | armedWait slot => exact wait_keepsLinks h fun d r => armedExpires_keepsLinks d slot r
  | dwell slot => exact wait_keepsLinks h fun d r => dwellEnds_keepsLinks d slot r
  | stop g cid run => exact message_keepsLinks (.stop cid run) h
  | stopWait slot => exact wait_keepsLinks h fun d r => cancelDown_keepsLinks d slot r
  | report g cid run truncated hops => exact message_keepsLinks (.report cid run truncated hops) h
  | reportWait slot =>
    exact onReset_keepsLinks h (onWaitIn_keepsLinks slot _ fun d r => reportExpires_keepsLinks d slot r)
  | refuse g cid run hop reason => exact message_keepsLinks (.refuse cid run hop reason) h
  | outcome g o => exact message_keepsLinks (.outcome o) h
  | outcomeWait slot => exact wait_keepsLinks h fun d _ => dropRun_keepsLinks d slot
  | cancel g cid run => exact message_keepsLinks (.cancel cid run) h
  | request g cid kind => exact message_keepsLinks (.request cid kind) h
  | hello g node degree => exact onReset_keepsLinks h (helloArrives_keepsLinks g node degree)
  | frameDiscarded g bytes => exact on_keepsLinks h (framesArrive_keepsLinks g bytes)
  | silenceDeadline g => exact onReset_keepsLinks h (silencePasses_keepsLinks g)
  | helloPeriod g => exact onReset_keepsLinks h (helloDue_keepsLinks g)
  | linkTransmit g => exact onReset_keepsLinks h fun _ => link_keepsLinks (transmit_staysSound _)
  | notifyPulseEnd p => exact onReset_keepsLinks h fun d => onExpiry_keepsLinks d _ fun _ => .of_side rfl

/-- Settles O58: a link is written by a HELLO, a frame heard, its silence, its transmission and a message handed to it,
each of which leaves it sound, and by an image on an UNCONFIGURED part, where every link is DISABLED. -/
theorem linksStaySound : Obligations.LinksStaySound := by
  intro s t sound h
  unfold step at h
  split at h
  · exact on_keepsLinks h (f := Device.idle) (fun _ => .of_side rfl) sound
  next c rest _ => exact exec_keepsLinks c { s with pending := rest } t h sound

end Sys2Proof.Machine

/-! SUPPORT. Links: frames taken for what they are, silence, the HELLO period, transmission and the outgoing queue. -/

namespace Sys2Proof.Machine

/-! ### Frames (R148, R149, R187) -/

/-- R148: the states in which a valid frame moves the silence deadline. -/
theorem hears_iff {x : LinkState} : x.hears = true ↔ x = .probing ∨ x = .up ∨ x = .miswired := by cases x <;> decide

/-- R148: what a valid frame does to its link. -/
theorem heard_eq (now : Nat) (l : Link) : l.heard now = { l with
    silence := if l.state = .probing ∨ l.state = .up ∨ l.state = .miswired then some (now + 3000) else l.silence } := by
  unfold Link.heard
  simp only [hears_iff]
  split
  · rfl
  · rfl

section
variable {bytes body : List Byte} {typ : Nat} (g : Fin 4) (d : Device)

theorem takeFrame_invalid (invalid : validFrame bytes = none) : d.takeFrame g bytes = d := by
  simp only [Device.takeFrame, invalid]

theorem takeFrame_malformed (valid : validFrame bytes = some (typ, body)) (malformed : parseFrame typ body = none) :
    d.takeFrame g bytes = d.heard g := by
  simp only [Device.takeFrame, valid, malformed]

theorem takeFrame_hello {node degree : Nat} (valid : validFrame bytes = some (typ, body))
    (spells : parseFrame typ body = some (.hello node degree)) :
    d.takeFrame g bytes = d.helloArrives g node degree := by
  simp only [Device.takeFrame, valid, spells]

theorem takeFrame_message {m : Message} (valid : validFrame bytes = some (typ, body))
    (spells : parseFrame typ body = some (.message m)) :
    d.takeFrame g bytes = d.receive g m (Device.dispatch g m) := by
  simp only [Device.takeFrame, valid, spells]

end

theorem exec_frameDiscarded (g : Fin 4) (bytes : List Byte) (s : State) :
    exec (.frameDiscarded g bytes) s = .next (s.put (Device.framesArrive g bytes s.dev)) := rfl

/-- R148: bytes without a delimiter, outside reset. -/
theorem exec_frameDiscarded_one {s : State} {bytes : List Byte} (live : s.dev.rst = false) (plain : 0x7E ∉ bytes)
    (g : Fin 4) : exec (.frameDiscarded g bytes) s = .next (s.put (s.dev.takeFrame g bytes)) := by
  rw [exec_frameDiscarded, framesArrive_one plain, unlessReset, live]
  rfl

theorem exec_hello {s : State} (live : s.dev.rst = false) (g : Fin 4) (node degree : Nat) :
    exec (.hello g node degree) s = .next (s.put (s.dev.helloArrives g node degree)) :=
  on_unlessReset live _

/-- R149, R186: the command that stands for a message has it received and dispatched. -/
theorem exec_commandOf {s : State} (live : s.dev.rst = false) (g : Fin 4) (m : Message) :
    exec (commandOf g m) s = .next (s.put (s.dev.receive g m (Device.dispatch g m))) := by
  rw [← on_unlessReset live]
  cases m with
  | announce cid run kind hop n dwell => rfl
  | armed cid run => rfl
  | stop cid run => rfl
  | report cid run truncated hops => rfl
  | refuse cid run hop reason => rfl
  | cancel cid run => rfl
  | outcome o => rfl
  | request cid kind => rfl

/-- Settles O54: a delimiter among the bytes by `framesArrive_append`, one frame by the `takeFrame_` lemma of each fate
it can have. -/
theorem framesAreTakenForWhatTheyAre : Obligations.FramesAreTakenForWhatTheyAre := by
  refine ⟨fun s t g before rest plain first => ?_, fun s g bytes live plain => ?_⟩
  · cases first
    rw [exec_frameDiscarded, exec_frameDiscarded, framesArrive_append plain]
    rfl
  rw [exec_frameDiscarded_one live plain]
  refine ⟨fun invalid => ?_, fun typ body valid =>
    ⟨fun malformed l hl => ?_, fun node degree spells => ?_, fun m spells => ?_⟩⟩
  · rw [takeFrame_invalid g _ invalid, put_self]
  · rw [takeFrame_malformed g _ valid malformed, Device.heard, link_eq, hl, heard_eq]
  · rw [takeFrame_hello g _ valid spells, exec_hello live]
  · rw [takeFrame_message g _ valid spells, exec_commandOf live]

/-! ### A link written anew -/

/-- The device with another link at a degree. -/
def Device.putLink (d : Device) (g : Fin 4) (l : Link) : Device := { d with links := d.links.set g l }

section
variable (d : Device) (g : Fin 4) (l : Link)

@[simp] theorem putLink_get : (d.putLink g l).links.get g = l := Table.get_set_self _ _ _

@[simp] theorem putLink_now : (d.putLink g l).now = d.now := rfl

@[simp] theorem link_putLink (f : Link → Link) : (d.putLink g l).link g f = d.putLink g (f l) := by
  rw [link_eq, putLink_get]
  exact congrArg (fun links => { d with links := links }) (Table.set_set _ _ _ _)

end

/-- R159: a link whose state changes has PLANT attention raised. -/
theorem linkWithPlant_moves {d : Device} {g : Fin 4} {f : Link → Link}
    (moves : (f (d.links.get g)).state ≠ (d.links.get g).state) :
    d.linkWithPlant g f = (d.link g f).raiseLine .plant := by
  simp [Device.linkWithPlant, moves]

/-- R159: a link that keeps its state has none raised. -/
theorem linkWithPlant_stays {d : Device} {g : Fin 4} {f : Link → Link}
    (stays : (f (d.links.get g)).state = (d.links.get g).state) : d.linkWithPlant g f = d.link g f := by
  simp [Device.linkWithPlant, stays]

/-! ### Silence, the HELLO period and transmission (R150, R153, R156, R157) -/

section
variable {s : State} {g : Fin 4} {l : Link}

/-- R156: a message handed to a link, in the three cases. -/
theorem send_eq (d : Device) (hl : d.links.get g = l) (m : Message) : d.send g m =
    if l.state = .up then
      if l.queue.length < 16 then d.putLink g { l with queue := l.queue ++ [m] } else d.raiseLine .plant
    else d := by
  subst hl
  rfl

/-- R153: a link that falls silent goes to DOWN, and the runs act on the loss of one that was UP. -/
theorem exec_silenceDeadline {t : Nat} {d : Device} (live : s.dev.rst = false) (hl : s.dev.links.get g = l)
    (deadline : l.silence = some t) (awake : l.state ≠ .down)
    (hd : d = ((s.dev.reach t).putLink g l.goDown).raiseLine .plant) :
    exec (.silenceDeadline g) s = .next (s.put (if l.state = .up then d.linkLost g else d)) := by
  have fell : (s.dev.reach t).linkWithPlant g Link.goDown = d := by
    rw [linkWithPlant_moves (by simpa [hl, Link.goDown] using awake.symm), link_eq, reach_links, hl, hd]
    rfl
  have passes : s.dev.silencePasses g = if l.state = .up then d.linkLost g else d := by
    simp only [Device.silencePasses, Device.onExpiry, hl, deadline, fell]
  rw [← passes]
  exact on_unlessReset live _

/-- R150: a HELLO that falls due is the next frame sent, and the one after it falls due a second later. -/
theorem helloDue_eq {d : Device} (hl : d.links.get g = l) (enabled : l.state ≠ .disabled) :
    d.helloDue g = (d.reach l.helloDue).putLink g { l with
      sent := wireBytes (.hello d.nodeId g.val), helloDue := l.helloDue + 1000 } := by
  subst hl
  exact if_neg enabled

theorem helloDue_disabled {d : Device} (hl : d.links.get g = l) (disabled : l.state = .disabled) :
    d.helloDue g = d := by
  subst hl
  exact if_pos disabled

theorem exec_helloPeriod (live : s.dev.rst = false) : exec (.helloPeriod g) s = .next (s.put (s.dev.helloDue g)) :=
  on_unlessReset live _

theorem transmit_eq {m : Message} {rest : List Message} (up : l.state = .up) (queue : l.queue = m :: rest) :
    l.transmit = { l with queue := rest, sent := wireBytes (.message m) } := by
  simp only [Link.transmit, up, queue]

/-- R157: a link that is not UP, or has nothing queued, begins no transmission. -/
theorem transmit_idle (idle : l.state ≠ .up ∨ l.queue = []) : l.transmit = l := by
  unfold Link.transmit
  split
  next m rest up queue => simp [up, queue] at idle
  next => rfl

theorem exec_linkTransmit (live : s.dev.rst = false) (hl : s.dev.links.get g = l) :
    exec (.linkTransmit g) s = .next (s.put (s.dev.putLink g l.transmit)) := by
  subst hl
  exact on_unlessReset live _

end

/-- Settles O52: the queue by `send_eq`, and each of the link's own events by the lemma about its command. -/
theorem linksSendAndFallSilent : Obligations.LinksSendAndFallSilent := by
  refine fun s g l hl => ⟨fun m => ⟨fun other => ?_, fun up room => ?_, fun up full => ?_⟩, fun live =>
    ⟨fun t d deadline hears hd => ?_, fun enabled => ?_, fun disabled => ?_, fun m rest up queue => ?_, fun idle => ?_⟩⟩
  · rw [send_eq _ hl, if_neg other]
  · rw [send_eq _ hl, if_pos up, if_pos room]; rfl
  · rw [send_eq _ hl, if_pos up, if_neg (Nat.not_lt.mpr full)]
  · refine exec_silenceDeadline live hl deadline (fun down => ?_) hd
    simp [down] at hears
  · rw [exec_helloPeriod live, helloDue_eq hl enabled]
    rfl
  · rw [exec_helloPeriod live, helloDue_disabled hl disabled, put_self]
  · rw [exec_linkTransmit live hl, transmit_eq up queue]
    rfl
  · rw [exec_linkTransmit live hl, transmit_idle idle, Device.putLink, ← hl, Table.set_get]
    rfl

end Sys2Proof.Machine

/-! SUPPORT. HELLO: when one agrees, what it leaves of its link, and the states it takes the link to. -/

namespace Sys2Proof.Machine

/-! ### A HELLO heard and judged (R148, R150, R151) -/

/-- R150: a HELLO with a degree is good where its node id lies in 1..65534. -/
theorem helloGood_iff {node : Nat} {degree : Fin 4} :
    helloGood node degree.val = true ↔ 1 ≤ node ∧ node ≤ 65534 := by
  simp [helloGood, inRange]

/-- R151, R154: the id a link accepts, none where the first HELLO in DOWN settles it. -/
def Device.acceptedBy (d : Device) (g : Fin 4) : Option Nat :=
  if d.expected g ≠ 0 then some (d.expected g)
  else if (d.links.get g).state = .down then none else (d.links.get g).seenId

/-- R151: a HELLO agrees from another node with the id accepted, or with any id where none is accepted yet. -/
theorem helloAgrees_iff (d : Device) (g : Fin 4) (node : Nat) : d.helloAgrees g node = true ↔
    node ≠ d.nodeId ∧ (d.acceptedBy g = some node ∨ (d.expected g = 0 ∧ (d.links.get g).state = .down)) := by
  simp only [Device.helloAgrees, Device.acceptedBy, Bool.and_eq_true, bne_iff_ne]
  refine and_congr_right fun _ => ?_
  by_cases free : d.expected g = 0
  · simp only [free, ne_eq, not_true_eq_false, if_false, true_and]
    split
    next down => simp [down]
    next other => simp [show (d.links.get g).state ≠ .down from other]
  · simpa [free] using eq_comm

/-- R154: the id a check names, 0 where none was accepted yet. -/
theorem accepting_eq (d : Device) (g : Fin 4) : d.accepting g = (d.acceptedBy g).getD 0 := by
  simp only [Device.accepting, Device.acceptedBy]
  by_cases free : d.expected g = 0
  · simp only [free, ne_eq, not_true_eq_false, if_false]
    split
    next down => rw [if_pos down]; rfl
    next other => rw [if_neg other]
  · simp [free]

/-- R148: outside DISABLED a valid frame moves the silence deadline unless the link is in DOWN. -/
theorem heard_putLink {d : Device} {g : Fin 4} {l : Link} (hl : d.links.get g = l) (enabled : l.state ≠ .disabled) :
    d.heard g = d.putLink g { l with
      silence := if l.state = .down then l.silence else some (d.now + 3000) } := by
  rw [Device.heard, link_eq, hl, heard_eq]
  cases state : l.state <;> simp [state, Device.putLink] at enabled ⊢

section
variable {d : Device} {g : Fin 4} {l seen : Link} {node : Nat} {degree : Fin 4}

theorem helloArrives_disabled (disabled : (d.links.get g).state = .disabled) (node degree : Nat) :
    d.helloArrives g node degree = d := if_pos disabled

/-- R148, R150: outside DISABLED a HELLO that is not good moves the silence deadline alone, and not even that in
DOWN. -/
theorem helloArrives_bad (hl : d.links.get g = l) (enabled : l.state ≠ .disabled) (bad : node = 0 ∨ 65534 < node) :
    d.helloArrives g node degree.val = d.putLink g { l with
      silence := if l.state = .down then l.silence else some (d.now + 3000) } := by
  have notGood : ¬(helloGood node degree.val = true) := by rw [helloGood_iff]; omega
  rw [Device.helloArrives, hl, if_neg enabled, if_neg notGood, heard_putLink hl enabled]

/-- R148, R150: outside DISABLED a good HELLO writes the neighbour seen, and what follows depends on whether it
agrees. -/
theorem helloArrives_good (hl : d.links.get g = l) (enabled : l.state ≠ .disabled) (least : 1 ≤ node)
    (most : node ≤ 65534) (hseen : seen = { l with
      seenId := some node, seenDegree := some degree
      silence := if l.state = .down then l.silence else some (d.now + 3000) }) :
    d.helloArrives g node degree.val = if d.helloAgrees g node then (d.putLink g seen).helloAgreed g
      else (d.putLink g seen).helloDisagreed g node degree.val ((d.acceptedBy g).getD 0) := by
  have heard : (d.heard g).link g (·.see node degree.val) = d.putLink g seen := by
    rw [heard_putLink hl enabled, link_putLink, hseen]
    simp [Link.see]
  rw [← accepting_eq, Device.helloArrives, hl, if_neg enabled, if_pos (helloGood_iff.mpr ⟨least, most⟩), heard]

end

/-! ### The states a HELLO takes a link to (R152, R154, R155) -/

section
variable (d : Device) (g : Fin 4) {l : Link}

/-- R152: from DOWN to PROBING. -/
theorem helloAgreed_down (down : l.state = .down) : (d.putLink g l).helloAgreed g =
    (d.putLink g { l with state := .probing, agreeing := 1, silence := some (d.now + 3000) }).raiseLine .plant := by
  have moves : (l.probe d.now).state ≠ l.state := by simp [Link.probe, down]
  simp only [Device.helloAgreed, putLink_get, down]
  rw [linkWithPlant_moves (by simpa using moves), link_putLink]
  rfl

/-- R152, R155: in PROBING and MISWIRED an agreeing HELLO is counted. -/
theorem helloAgreed_counts (counts : l.state = .probing ∨ l.state = .miswired) :
    (d.putLink g l).helloAgreed g = (d.putLink g l).linkWithPlant g Link.agree := by
  obtain state | state := counts
  · simp only [Device.helloAgreed, putLink_get, state]
  · simp only [Device.helloAgreed, putLink_get, state]

/-- R152, R155: the first two leave the link where it is. -/
theorem helloAgreed_few (counts : l.state = .probing ∨ l.state = .miswired) (few : l.agreeing < 2) :
    (d.putLink g l).helloAgreed g = d.putLink g { l with agreeing := l.agreeing + 1 } := by
  have agree : l.agree = { l with agreeing := l.agreeing + 1 } := if_pos (by omega)
  rw [helloAgreed_counts d g counts, linkWithPlant_stays (by simp [agree]), link_putLink, agree]

/-- R152, R155: the third takes it UP. -/
theorem helloAgreed_third (counts : l.state = .probing ∨ l.state = .miswired) (two : l.agreeing = 2) :
    (d.putLink g l).helloAgreed g = (d.putLink g { l with agreeing := 3, state := .up }).raiseLine .plant := by
  have agree : l.agree = { l with agreeing := 3, state := .up } := if_neg (by omega)
  have moves : LinkState.up ≠ l.state := by rintro up; simp [← up] at counts
  rw [helloAgreed_counts d g counts, linkWithPlant_moves (by simpa [agree] using moves), link_putLink, agree]

theorem helloAgreed_up (up : l.state = .up) : (d.putLink g l).helloAgreed g = d.putLink g l := by
  simp only [Device.helloAgreed, putLink_get, up]

/-- R155: in MISWIRED a HELLO that disagrees sets the count back. -/
theorem helloDisagreed_miswired (miswired : l.state = .miswired) (node degree accepting : Nat) :
    (d.putLink g l).helloDisagreed g node degree accepting = d.putLink g { l with agreeing := 0 } := by
  simp only [Device.helloDisagreed, putLink_get, miswired, link_putLink]

/-- R154, R157, R159: from any other state a link goes to MISWIRED with an empty queue, PLANT attention and a check. -/
theorem miswire_eq (moves : l.state ≠ .miswired) (node degree accepting : Nat) :
    (d.putLink g l).miswire g node degree accepting = ((d.putLink g { l with
      state := .miswired, agreeing := 0, silence := some (d.now + 3000), queue := [] }).raiseLine .plant).raiseCheck
        (.neighbourMismatch g node degree accepting) := by
  rw [Device.miswire, linkWithPlant_moves (by simpa [Link.miswire] using moves.symm), link_putLink]
  rfl

theorem helloDisagreed_waiting (waits : l.state = .down ∨ l.state = .probing) (node degree accepting : Nat) :
    (d.putLink g l).helloDisagreed g node degree accepting = (d.putLink g l).miswire g node degree accepting := by
  obtain state | state := waits
  · simp only [Device.helloDisagreed, putLink_get, state]
  · simp only [Device.helloDisagreed, putLink_get, state]

/-- R158: the runs act on the loss of a link that was UP. -/
theorem helloDisagreed_up (up : l.state = .up) (node degree accepting : Nat) :
    (d.putLink g l).helloDisagreed g node degree accepting =
      ((d.putLink g l).miswire g node degree accepting).linkLost g := by
  simp only [Device.helloDisagreed, putLink_get, up]

end

/-! ### HELLO (R150 to R155) -/

/-- Settles O51: a HELLO by whether it is good (`helloArrives_good`) and agrees (`helloAgrees_iff`), and what either does
by the lemma of the state it finds the link in. -/
theorem helloMovesTheLink : Obligations.HelloMovesTheLink := by
  intro s g degree node l seen accepted agrees put after live hl hput hafter hseen haccepted hagrees
  obtain rfl : put = s.dev.putLink g := funext hput
  have arrives : ∀ d, s.dev.helloArrives g node degree.val = d → after d := by
    rintro d rfl
    exact (hafter _).mpr (exec_hello live g node degree.val)
  have accepts : s.dev.acceptedBy g = accepted := by rw [haccepted, Device.acceptedBy, hl]
  have judged : s.dev.helloAgrees g node = true ↔ agrees := by rw [hagrees, helloAgrees_iff, accepts, hl]
  have seenState : seen.state = l.state := by rw [hseen]
  have seenCount : seen.agreeing = l.agreeing := by rw [hseen]
  refine ⟨fun disabled => arrives _ (helloArrives_disabled (hl ▸ disabled) node degree.val),
    fun enabled bad => arrives _ (helloArrives_bad hl enabled bad), fun least most => ?_⟩
  have agreed : agrees → l.state ≠ .disabled → after ((s.dev.putLink g seen).helloAgreed g) := fun agree enabled =>
    arrives _ ((helloArrives_good hl enabled least most hseen).trans (if_pos (judged.mpr agree)))
  have disagreed : ¬agrees → l.state ≠ .disabled →
      after ((s.dev.putLink g seen).helloDisagreed g node degree.val (accepted.getD 0)) := fun disagree enabled =>
    arrives _ (accepts ▸ (helloArrives_good hl enabled least most hseen).trans (if_neg (disagree ∘ judged.mp)))
  rw [← seenState] at agreed disagreed ⊢
  rw [← seenCount]
  refine ⟨fun agree down => ?_, fun agree counts => ⟨fun few => ?_, fun two => ?_⟩, fun agree up => ?_,
    fun disagree miswired => ?_, fun disagree d hd => ⟨fun waits => ?_, fun up => ?_⟩⟩
  · rw [← helloAgreed_down s.dev g down]
    exact agreed agree (by simp [down])
  · rw [← helloAgreed_few s.dev g counts few]
    exact agreed agree fun disabled => by simp [disabled] at counts
  · rw [← helloAgreed_third s.dev g counts two]
    exact agreed agree fun disabled => by simp [disabled] at counts
  · rw [← helloAgreed_up s.dev g up]
    exact agreed agree (by simp [up])
  · rw [← helloDisagreed_miswired s.dev g miswired node degree.val (accepted.getD 0)]
    exact disagreed disagree (by simp [miswired])
  · have moves : seen.state ≠ .miswired := fun miswired => by simp [miswired] at waits
    rw [hd, ← miswire_eq s.dev g moves, ← helloDisagreed_waiting s.dev g waits]
    exact disagreed disagree fun disabled => by simp [disabled] at waits
  · rw [hd, ← miswire_eq s.dev g (by simp [up]), ← helloDisagreed_up s.dev g up]
    exact disagreed disagree (by simp [up])

end Sys2Proof.Machine

/-! SUPPORT. The Port Interface: what each client command does with a request, and what a port shifts in and out. -/

namespace Sys2Proof.Machine

/-! ### Every command is an operation on the part -/

/-- Every command acts on the part by an operation of its own and leaves the waiting commands alone. -/
theorem exec_eq_on (c : Instr) : ∃ f : Device → Device, ∀ s, exec c s = s.on f := by
  cases c <;> exact ⟨_, fun _ => rfl⟩

/-- R51: with no command waiting, a step is one millisecond of the time base. -/
theorem step_idle {s : State} (empty : s.pending = []) : step s = .next (s.put s.dev.idle) := by
  simp only [step, empty, on_eq_put]

/-- Settles O1, by the case of `step` with a command waiting. -/
theorem stepRunsTheFrontCommand : Obligations.StepRunsTheFrontCommand := fun _ _ _ => by simp only [step]

/-- Settles O2: a command by `exec_eq_on`, an empty queue by `step_idle`. -/
theorem everyCommandAnswersAndKeepsTheQueue : Obligations.EveryCommandAnswersAndKeepsTheQueue := by
  refine ⟨fun c s => ?_, fun s empty => step_idle empty⟩
  obtain ⟨f, hf⟩ := exec_eq_on c
  exact ⟨s.put (f s.dev), hf s, rfl⟩

/-! ### The client commands (R164, R191) -/

/-- A client command is the execution of its code. -/
theorem exec_clientCommand : ∀ x ∈ clientCommands, ∀ (p : Fin 4) (body : List Byte) (s : State),
    exec (x.form p body) s = .next (s.put (s.dev.execute p x.rule.code body)) := by
  rw [← List.forall_iff_forall_mem]
  repeat' apply And.intro
  all_goals exact fun _ _ _ => rfl

/-- R164, R191: the execution of a client command's code is a request judged by the command's row of the tables. -/
theorem execute_clientCommand : ∀ x ∈ clientCommands, ∃ act : Fin 4 → List Byte → Device → Device,
    ∀ (p : Fin 4) (body : List Byte) (d : Device),
      d.execute p x.rule.code body = d.request x.rule p (x.lengthOk body) (act p body) := by
  rw [← List.forall_iff_forall_mem]
  repeat' apply And.intro
  all_goals exact ⟨_, fun _ _ _ => rfl⟩

/-- R164: a code of no client command is answered BAD-COMMAND. -/
theorem execute_unknown {code : Nat} (unknown : ∀ x ∈ clientCommands, x.rule.code ≠ code) (p : Fin 4)
    (body : List Byte) (d : Device) : d.execute p code body = d.respond p code 0x10 [] := by
  have absent : code ∉ clientCommands.map (·.rule.code) := by simpa using unknown
  unfold Device.execute
  split
  case h_32 => rfl
  all_goals exact absurd (by decide) absent

section

variable {d : Device} {p : Fin 4} {r : CommandRule} {ok : Bool} {act : Device → Device}

/-- R162: a request on a busy port, or on one whose response is pending, sets DROPPED. -/
theorem request_dropped (live : d.rst = false) (served : d.served p = true) (away : d.turnsAway p = true) :
    d.request r p ok act = d.port p fun x => { x with dropped := true } := by
  simp [Device.request, live, served, away]

/-- R164: a request that the gate refuses is answered with the gate's code. -/
theorem request_refused {rc : Nat} (takes : d.takes p = true) (refused : d.gate r p ok = some rc) :
    d.request r p ok act = d.respond p r.code rc [] := by
  rw [request_taken takes, refused]

theorem gate_unconfigured (unconfigured : d.configured = false) (late : r.early = false) :
    d.gate r p ok = some 0x18 := by
  simp [Device.gate, unconfigured, late, rcUnconfigured]

theorem gate_notPermitted (configured : d.configured = true) (lineOnly : r.lineOnly = true)
    (tenant : d.isLine p = false) : d.gate r p ok = some 0x12 := by
  simp [Device.gate, configured, lineOnly, tenant, rcNotPermitted]

theorem gate_badLength (ready : d.configured = true ∨ r.early = true) (may : r.lineOnly = true → d.isLine p = true) :
    d.gate r p false = some 0x11 := by
  have passes : (!d.configured && !r.early) = false := by rcases ready with h | h <;> simp [h]
  have permitted : (d.configured && r.lineOnly && !d.isLine p) = false := by
    cases only : r.lineOnly
    · simp
    · simp [may only]
  simp [Device.gate, passes, permitted, rcBadArgument]

end

/-! ### The bytes shifted in (R162, R183) -/

/-- R162: a damaged frame is known by its first byte. -/
theorem requestFrame_damaged {bytes : List Byte} {code : Nat} (damaged : requestFrame bytes = .damaged code) :
    code = byteAt bytes 0 := by
  simp only [requestFrame] at damaged
  split at damaged
  · cases damaged; rfl
  split at damaged
  · cases damaged; rfl
  · cases damaged

/-- R162: no bytes, or a first byte of 00h, carry no request. -/
theorem noRequest_iff (bytes : List Byte) : noRequest bytes = true ↔ bytes = [] ∨ byteAt bytes 0 = 0 := by
  simp [noRequest]

/-- R162: bytes with a first byte other than 00h carry a request. -/
theorem noRequest_false {bytes : List Byte} (nonempty : bytes ≠ []) (first : byteAt bytes 0 ≠ 0) :
    noRequest bytes = false := by
  simpa [noRequest] using ⟨nonempty, first⟩

section

variable {d : Device} {p : Fin 4} {bytes : List Byte}

theorem undecoded_noRequest (carriesNone : noRequest bytes = true) : d.undecoded p bytes = d := by
  simp [Device.undecoded, carriesNone]

/-- R162: bytes that carry a request set DROPPED on a busy port and on one whose response is pending. -/
theorem undecoded_dropped (live : d.rst = false) (served : d.served p = true) (away : d.turnsAway p = true)
    (carries : noRequest bytes = false) : d.undecoded p bytes = d.port p fun x => { x with dropped := true } := by
  simp [Device.undecoded, live, served, away, carries]

theorem undecoded_damaged {code : Nat} (takes : d.takes p = true) (carries : noRequest bytes = false)
    (damaged : requestFrame bytes = .damaged code) : d.undecoded p bytes = d.respond p code 0x1A [] := by
  obtain ⟨live, served, free⟩ := (takes_iff d p).mp takes
  simp [Device.undecoded, live, served, free, carries, damaged, rcFrameError]

theorem undecoded_whole {code : Nat} {body : List Byte} (takes : d.takes p = true)
    (carries : noRequest bytes = false) (whole : requestFrame bytes = .whole code body) :
    d.undecoded p bytes = d.execute p code body := by
  obtain ⟨live, served, free⟩ := (takes_iff d p).mp takes
  simp [Device.undecoded, live, served, free, carries, whole]

end

theorem exec_undecodedRequest (p : Fin 4) (bytes : List Byte) (s : State) :
    exec (.undecodedRequest p bytes) s = .next (s.put (s.dev.undecoded p bytes)) := rfl

/-- Settles O6: no request by `undecoded_noRequest`, a frame by whether it is damaged or whole, and a whole one by
whether its code is of a client command. -/
theorem shiftedBytesAreDecodedAtTheDeassertion : Obligations.ShiftedBytesAreDecodedAtTheDeassertion := by
  intro s p bytes
  rw [exec_undecodedRequest]
  refine ⟨fun nothing => by rw [undecoded_noRequest ((noRequest_iff bytes).mpr nothing), put_self],
    fun takes nonempty first => ?_⟩
  have carries := noRequest_false nonempty first
  refine ⟨fun code damaged => ?_, fun code body whole unknown => ?_, fun x known body whole => ?_⟩
  · rw [undecoded_damaged takes carries damaged, requestFrame_damaged damaged]
  · rw [undecoded_whole takes carries whole, execute_unknown unknown]
  · rw [undecoded_whole takes carries whole, exec_clientCommand x known]

/-- Settles O5: a request that is turned away by `request_dropped` and `undecoded_dropped`, an executed one by the three
tests of the gate. -/
theorem requestsAreTurnedAwayOrRefused : Obligations.RequestsAreTurnedAwayOrRefused := by
  constructor
  case left =>
    intro s p live served busyOrPending t ht
    have away : s.dev.turnsAway p = true := (Bool.or_eq_true _ _).mpr busyOrPending
    refine ⟨fun x known body => ?_, fun bytes nonempty first => ?_⟩
    · obtain ⟨act, request⟩ := execute_clientCommand x known
      rw [exec_clientCommand x known, request, request_dropped live served away, ht]
    · rw [exec_undecodedRequest, undecoded_dropped live served away (noRequest_false nonempty first), ht]
  case right =>
    intro s p x body known takes
    obtain ⟨act, request⟩ := execute_clientCommand x known
    rw [exec_clientCommand x known, request]
    refine ⟨fun unconfigured late => ?_, fun configured lineOnly tenant => ?_, fun ready may short => ?_⟩
    · rw [request_refused takes (gate_unconfigured unconfigured late)]
    · rw [request_refused takes (gate_notPermitted configured lineOnly tenant)]
    · rw [short, request_refused takes (gate_badLength ready may)]

/-! ### Transactions (R161, R166) -/

/-- R161: a port's context after a transaction that clocked `n` bytes, with `out` to shift out and `filler` after it. -/
def PortCtx.clocked (out filler : List Byte) (n : Nat) (x : PortCtx) : PortCtx :=
  { x with
    shifted := out.take n ++ filler, dropped := false
    response := if out.length ≤ n then none else x.response }

theorem length_fillerBytes (draw n : Nat) : (fillerBytes draw n).length = n := by simp [fillerBytes]

/-- R165: an OFF port takes no part in transactions. -/
theorem transaction_off {d : Device} {p : Fin 4} (off : d.served p = false) (n : Nat) : d.transaction p n = d := by
  simp [Device.transaction, off]

/-- R161: a transaction on a port that takes part in it. -/
theorem transaction_served {d : Device} {p : Fin 4} {n : Nat} (live : d.rst = false) (served : d.served p = true)
    (clocked : 0 < n) : d.transaction p n = Device.port { d with draws := d.draws + d.fillerCount p n } p
      (PortCtx.clocked (d.outgoing p) (fillerBytes d.draws (d.fillerCount p n)) n) := by
  have nonzero : (n == 0) = false := by simpa using clocked.ne'
  simp only [Device.transaction, live, served, nonzero, Bool.not_true, Bool.or_false, Bool.false_eq_true, if_false]
  rfl

/-- R161: as many bytes are shifted out as are clocked. -/
theorem length_clocked (out : List Byte) (draw n : Nat) :
    (out.take n ++ fillerBytes draw (n - out.length)).length = n := by
  rw [List.length_append, List.length_take, length_fillerBytes]
  omega

/-- R161: what a port has to shift out comes before the filler bytes. -/
theorem take_clocked (out : List Byte) (draw n : Nat) :
    (out.take n ++ fillerBytes draw (n - out.length)).take out.length = out.take n := by
  rcases Nat.le_total n out.length with short | long
  · have noFiller : n - out.length = 0 := Nat.sub_eq_zero_of_le short
    simp [noFiller, fillerBytes]
  · rw [List.take_of_length_le long, List.take_left]

/-- Settles O4: an OFF port by `transaction_off`, any other by `transaction_served`, whose bytes are counted by
`length_clocked` and told apart by `take_clocked`. -/
theorem transactionShiftsOutStatusAndResponse : Obligations.TransactionShiftsOutStatusAndResponse := by
  refine fun s p n live clocked => ⟨fun off => ?_, fun served => ⟨s.put (s.dev.transaction p n), rfl, ?_⟩⟩
  · exact congrArg (fun d => Host.Outcome.next (s.put d)) (transaction_off off n)
  · rintro _ _ _ rfl rfl rfl
    rw [transaction_served live served clocked, put_dev, Device.port, Table.get_modify_self]
    exact ⟨length_clocked _ _ n, take_clocked _ _ n, rfl, rfl, rfl, fun q other => Table.get_modify_ne _ _ other, rfl⟩

end Sys2Proof.Machine

/-! SUPPORT. Attention, its signal and checks: what is raised, acknowledged, notified, cleared and reset. -/

namespace Sys2Proof.Machine

/-! ### One port's context changed -/

theorem port_get_self (d : Device) (p : Fin 4) (f : PortCtx → PortCtx) :
    (d.port p f).ports.get p = f (d.ports.get p) := Table.get_modify_self ..

theorem port_get_ne (d : Device) {p q : Fin 4} (f : PortCtx → PortCtx) (other : q ≠ p) :
    (d.port p f).ports.get q = d.ports.get q := Table.get_modify_ne _ _ other

theorem respond_get_self (d : Device) (p : Fin 4) (code rc : Nat) (body : List Byte) :
    (d.respond p code rc body).ports.get p =
      { d.ports.get p with response := some (responseFrame code rc body) } := port_get_self ..

/-! ### Attention and checks raised (R171 to R173) -/

/-- R172: a class raised on a port, with its pulse. -/
theorem raise_eq (x : PortCtx) (now : Nat) (c : AttClass) : x.raise now c = { x with
    attention := x.attention ||| c.bit
    pulse := if x.mode = .pulse ∧ hasAtt x.attention c = false ∧ hasAtt x.mask c = false ∧ x.pulse = none
      then some (now + 5) else x.pulse } := by
  simp [PortCtx.raise, and_assoc]

theorem isLine_iff (d : Device) (p : Fin 4) : d.isLine p = true ↔ d.role p = some .line := by simp [Device.isLine]

/-- R3, R165: an owner stands for its port where that is LINE or TENANT, and LINE for the LINE ports. -/
theorem ownedBy_iff (d : Device) (o : Owner) (p : Fin 4) : d.ownedBy o p = true ↔
    (o = .line ∧ d.role p = some .line) ∨ (o = .port p ∧ (d.role p = some .line ∨ d.role p = some .tenant)) := by
  cases o with
  | port q => simp [Device.ownedBy, isLine_iff, @eq_comm _ p q]
  | line => simp [Device.ownedBy, isLine_iff]

/-- R171: a class raised where a test picks, port by port. -/
theorem raiseWhere_get (d : Device) (sel : Fin 4 → Bool) (c : AttClass) (p : Fin 4) :
    (d.raiseWhere sel c).ports.get p = if sel p = true then (d.ports.get p).raise d.now c else d.ports.get p :=
  Table.get_mapIdx ..

/-- R173: a check with no report present makes one. -/
theorem raiseCheck_new {d : Device} (absent : d.check = none) (cause : CheckCause) : d.raiseCheck cause =
    ({ d with
        check := some ⟨cause, d.clock.time, 0⟩
        ports := d.ports.mapIdx fun p x => if d.isLine p then { x with cleared := false } else x } : Device).raiseLine
      .check := by
  simp only [Device.raiseCheck, absent]

/-- R173: a check with a report present is one more on its count. -/
theorem raiseCheck_again {d : Device} {r : CheckReport} (present : d.check = some r) (cause : CheckCause) :
    d.raiseCheck cause = { d with check := some { r with count := min 255 (r.count + 1) } } := by
  simp only [Device.raiseCheck, present]

/-- Settles O12: attention port by port by `raiseWhere_get`, a check by whether a report is present. -/
theorem attentionAndChecksAreRaised : Obligations.AttentionAndChecksAreRaised := by
  refine ⟨fun d c o => ⟨?_, rfl, rfl⟩, fun d cause =>
    ⟨fun absent => raiseCheck_new absent cause, fun r present => raiseCheck_again present cause⟩⟩
  rintro p _ rfl _ rfl
  rw [← raise_eq, Device.raiseLine, Device.raiseOwner, raiseWhere_get, raiseWhere_get]
  exact ⟨if_congr (isLine_iff d p) rfl rfl, if_congr (ownedBy_iff d o p) rfl rfl⟩

/-! ### READ-CHANGES and ACK-ATTENTION (R170, R171) -/

section

variable {s : State} {p : Fin 4} {body : List Byte}

theorem exec_readChanges (takes : s.dev.takesAny p = true) :
    exec (.readChanges p []) s = .next (s.put (s.dev.readChanges p)) :=
  on_request_any takes rfl 0x04 (Device.readChanges p)

theorem exec_ackAttention (takes : s.dev.takesAny p = true) (length : body.length = 1) :
    exec (.ackAttention p body) s = .next (s.put (s.dev.ackAttention p body)) :=
  on_request_any takes (by simp [length]) 0x05 (Device.ackAttention p body)

theorem exec_setNotify (takes : s.dev.takesAny p = true) (length : body.length = 2) :
    exec (.setNotify p body) s = .next (s.put (s.dev.setNotify p body)) :=
  on_request_any takes (by simp [length]) 0x06 (Device.setNotify p body)

end

/-- R170: what READ-CHANGES returns lies below what it leaves, in a set that ascends. -/
theorem take_lt_drop {l : List (Fin 256)} (ascends : l.Pairwise (· < ·)) (n : Nat) :
    ∀ i ∈ l.take n, ∀ j ∈ l.drop n, i < j := by
  rw [← List.take_append_drop n l, List.pairwise_append] at ascends
  exact ascends.2.2

theorem changesBytes_eq (set : List (Fin 256)) : changesBytes set =
    BitVec.ofNat 8 ((set.take 32).length + if set.drop 32 = [] then 0 else 128) ::
      (set.take 32).map fun i => BitVec.ofNat 8 i.val := by
  simp only [changesBytes, List.isEmpty_iff]

section

variable {d : Device} {p : Fin 4} {body : List Byte}

theorem ackAttention_classes (known : byteAt body 0 < 128) : d.ackAttention p body =
    let left := (d.ports.get p).attention &&& ~~~(BitVec.ofNat 7 (byteAt body 0))
    (d.port p fun x => { x with attention := left }).respond p 0x05 0x00 [left.setWidth 8] := by
  simp only [Device.ackAttention, classesOf, known, if_true, rcOk]

theorem ackAttention_unknown (unknown : 128 ≤ byteAt body 0) : d.ackAttention p body = d.respond p 0x05 0x11 [] := by
  simp only [Device.ackAttention, classesOf, Nat.not_lt.mpr unknown, if_false, rcBadArgument]

end

/-- Settles O8: what READ-CHANGES returns by `changesBytes_eq`, and ACK-ATTENTION by whether it names classes alone. -/
theorem readChangesAndAckAttentionTakeWhatTheyName : Obligations.ReadChangesAndAckAttentionTakeWhatTheyName := by
  rintro s p _ takes rfl
  refine ⟨?changes, fun body length => ⟨fun known a ha => ?_, fun unknown => ?_⟩⟩
  case changes =>
    rintro _ _ _ rfl rfl rfl
    refine ⟨?_, fun ascends => take_lt_drop ascends 32⟩
    rw [exec_readChanges takes, ← changesBytes_eq]
    rfl
  · rw [exec_ackAttention takes length, ackAttention_classes known, ha]
  · rw [exec_ackAttention takes length, ackAttention_unknown unknown]

/-! ### The notify signal (R172) -/

/-- R182: a class stands in a set as the bit of its code. -/
theorem hasAtt_eq_bit (a : BitVec 7) (c : AttClass) : hasAtt a c = a.getLsbD (codeIn attClassTable c) := by
  cases c <;> revert a <;> decide

/-- R182: every bit of a set is that of a class. -/
theorem bit_is_class {i : Nat} (h : i < 7) : ∃ c, codeIn attClassTable c = i := by
  have classes : ∀ k : Fin 7, codeIn attClassTable (attClassTable.get k) = k.val := by decide
  exact ⟨_, classes ⟨i, h⟩⟩

/-- R172: an unmasked class is set exactly where the set has a bit outside the mask. -/
theorem unmasked_iff (a m : BitVec 7) :
    a &&& ~~~m ≠ 0 ↔ ∃ c : AttClass, hasAtt a c = true ∧ hasAtt m c = false := by
  simp only [hasAtt_eq_bit]
  constructor
  · intro nonzero
    by_contra masked
    push Not at masked
    refine nonzero (BitVec.eq_of_getLsbD_eq fun i hi => ?_)
    obtain ⟨c, rfl⟩ := bit_is_class hi
    simpa [hi] using masked c
  · rintro ⟨c, set, unmasked⟩ zero
    have within : codeIn attClassTable c < 7 := BitVec.lt_of_getLsbD set
    have bit : (a &&& ~~~m).getLsbD (codeIn attClassTable c) = true := by
      rw [BitVec.getLsbD_and, BitVec.getLsbD_not, set, unmasked, decide_eq_true within]
      rfl
    simp [zero] at bit

/-- R172: the notify signal in LEVEL mode. -/
theorem notify_level {x : PortCtx} (level : x.mode = .level) : x.notify = true ↔ x.attention &&& ~~~x.mask ≠ 0 := by
  simp [PortCtx.notify, level]

section

variable {d : Device} {p : Fin 4} {body : List Byte}

/-- R172: SET-NOTIFY with a mode and a mask of classes writes them. -/
theorem setNotify_writes {mode : NotifyMode} (named : notifyModeTable[byteAt body 0]? = some mode)
    (known : byteAt body 1 < 128) : d.setNotify p body =
      (d.port p (·.setNotify mode (BitVec.ofNat 7 (byteAt body 1)))).respond p 0x06 0x00 [] := by
  simp only [Device.setNotify, classesOf, named, known, if_true, rcOk]

/-- R172: SET-NOTIFY refuses another mode and a mask with an unknown class. -/
theorem setNotify_refuses (bad : 1 < byteAt body 0 ∨ 128 ≤ byteAt body 1) :
    d.setNotify p body = d.respond p 0x06 0x11 [] := by
  unfold Device.setNotify
  split
  next mode mask named known =>
    have code : byteAt body 0 < 2 := (List.getElem?_eq_some_iff.mp named).1
    have classes : byteAt body 1 < 128 := by
      by_contra unknown
      simp [classesOf, unknown] at known
    omega
  next => rfl

/-- R172: a pulse ends at its deadline at the earliest. -/
theorem pulseEnd_running {deadline : Nat} (runs : (d.ports.get p).pulse = some deadline) :
    d.pulseEnd p = (d.reach deadline).port p fun x => { x with pulse := none } := by
  simp only [Device.pulseEnd, Device.onExpiry, runs]

end

theorem exec_notifyPulseEnd {s : State} (live : s.dev.rst = false) (p : Fin 4) :
    exec (.notifyPulseEnd p) s = .next (s.put (s.dev.pulseEnd p)) := on_unlessReset live _

/-- Settles O9: SET-NOTIFY by what its body names, the end of a pulse by `pulseEnd_running`, the signal in LEVEL mode by
`unmasked_iff`. -/
theorem notifyFollowsModeMaskAndPulse : Obligations.NotifyFollowsModeMaskAndPulse := by
  rintro s p _ rfl
  refine ⟨fun takes body length => ⟨fun mode named known => ?_, fun bad => ?_⟩, fun live deadline runs => ?_,
    fun level => (notify_level level).trans (unmasked_iff _ _)⟩
  · rw [exec_setNotify takes length, setNotify_writes named known]
    rfl
  · rw [exec_setNotify takes length, setNotify_refuses bad]
  · rw [exec_notifyPulseEnd live, pulseEnd_running runs]
    rfl

/-! ### CLEAR-CHECK (R174) -/

theorem exec_clearCheck {s : State} {p : Fin 4} (takes : s.dev.takesLine p = true) :
    exec (.clearCheck p []) s = .next (s.put (s.dev.clearCheck p)) :=
  on_request_line takes rfl 0x07 (Device.clearCheck p)

/-- R174: the port's check cleared. -/
def Device.clearedBy (d : Device) (p : Fin 4) : Device := d.port p fun x => { x with cleared := true }

section

variable {d : Device} {p : Fin 4}

theorem clearCheck_absent (absent : d.check = none) : d.clearCheck p = d.respond p 0x07 0x17 [] :=
  if_pos (by simp [absent])

theorem clearCheck_again {r : CheckReport} (present : d.check = some r) (cleared : (d.ports.get p).cleared = true) :
    d.clearCheck p = d.respond p 0x07 0x00 [] := by
  simp [Device.clearCheck, present, cleared, rcOk]

theorem clearCheck_clears {r : CheckReport} (present : d.check = some r) (owed : (d.ports.get p).cleared = false) :
    d.clearCheck p = (d.clearedBy p).dropCleared.respond p 0x07 0x00 [] := by
  simp [Device.clearCheck, present, owed, rcOk, Device.clearedBy]

/-- R174: the report is cleared by every LINE port. -/
theorem allCleared_iff (d : Device) :
    d.allCleared = true ↔ ∀ q, d.isLine q = true → (d.ports.get q).cleared = true := by
  simp [Device.allCleared, Bool.or_eq_true, imp_iff_not_or]

/-- R174: with one port's check cleared, the report is owed to the other LINE ports alone. -/
theorem clearedBy_allCleared (d : Device) (p : Fin 4) : (d.clearedBy p).allCleared = true ↔
    ∀ q, d.isLine q = true → q ≠ p → (d.ports.get q).cleared = true := by
  rw [allCleared_iff]
  refine forall_congr' fun q => imp_congr_right fun _ => ?_
  by_cases own : q = p
  · simp [own, Device.clearedBy]
  · simp [own, Device.clearedBy, Table.get_modify_ne]

end

/-- Settles O10: the cases of CLEAR-CHECK, and the report's end by `clearedBy_allCleared`. -/
theorem clearCheckEndsTheReportAtTheLastLinePort : Obligations.ClearCheckEndsTheReportAtTheLastLinePort := by
  intro s p takes
  rw [exec_clearCheck takes]
  refine ⟨fun absent => ?_, fun r present cleared => ?_,
    fun r present owed => ⟨fun all => ?_, fun q line other left => ?_⟩⟩
  · rw [clearCheck_absent absent]
  · rw [clearCheck_again present cleared]
  · rw [clearCheck_clears present owed, Device.dropCleared, if_pos ((clearedBy_allCleared s.dev p).mpr all)]
    rfl
  · have owedYet : ¬(s.dev.clearedBy p).allCleared = true := fun all => by
      simp [(clearedBy_allCleared s.dev p).mp all q line other] at left
    rw [clearCheck_clears present owed, Device.dropCleared, if_neg owedYet]
    rfl

/-! ### PORT-RESET (R175) -/

section

variable {s : State} {p : Fin 4}

theorem exec_portReset_unconfigured (takes : s.dev.takes p = true) (unconfigured : s.dev.running = none) :
    exec (.portReset p []) s = .next (s.put (s.dev.respond p 0x08 0x18 [])) := by
  have refused : s.dev.gate ⟨0x08, false, false⟩ p true = some 0x18 :=
    gate_unconfigured (by simp [Device.configured, unconfigured]) rfl
  exact congrArg (fun d => Host.Outcome.next (s.put d)) (request_refused takes refused)

theorem exec_portReset {g : Settings} (takes : s.dev.takes p = true) (configured : s.dev.running = some g) :
    exec (.portReset p []) s =
      .next (s.put ((s.dev.port p (·.portReset (g.notify.get p))).respond p 0x08 0x00 [])) := by
  have takesAny : s.dev.takesAny p = true := by simp [Device.takesAny, takes, Device.configured, configured]
  refine (on_request_any takesAny rfl 0x08 (Device.portReset p)).trans ?_
  simp [Device.portReset, Device.notifyDefault, configured, rcOk]

end

/-- R175: the notify signal of a port whose context is reset is deasserted, whatever mode its defaults name. -/
theorem notify_quiet {x : PortCtx} (attention : x.attention = 0) (pulse : x.pulse = none) : x.notify = false := by
  cases mode : x.mode <;> simp [PortCtx.notify, mode, attention, pulse]

/-- Settles O11: UNCONFIGURED by the gate, otherwise `PortCtx.portReset` in the sending port alone. -/
theorem portResetTouchesOneContext : Obligations.PortResetTouchesOneContext := by
  refine fun s p takes => ⟨exec_portReset_unconfigured takes, fun g configured => ?_⟩
  have context : ((s.dev.port p (·.portReset (g.notify.get p))).respond p 0x08 0x00 []).ports.get p =
      { (s.dev.ports.get p).portReset (g.notify.get p) with response := some (responseFrame 0x08 0x00 []) } := by
    rw [respond_get_self, port_get_self]
  exact ⟨_, _, exec_portReset takes configured, context, rfl, rfl, rfl, rfl, rfl, rfl, rfl, rfl, rfl,
    notify_quiet rfl rfl, rfl, rfl, rfl, fun q other => (port_get_ne _ _ other).trans (port_get_ne _ _ other), rfl⟩

end Sys2Proof.Machine

/-! SUPPORT. What a port reads: the device status, the cursor, the record at it, and what a record shows to a port. -/

namespace Sys2Proof.Machine

/-! ### STATUS, SEEK and READ reach their block (R167 to R169) -/

section

variable {s : State} {p : Fin 4} {body : List Byte}

/-- R164: a command taken while the part is UNCONFIGURED too is what its block does with it. -/
theorem on_request_early {ok : Bool} (takes : s.dev.takes p = true) (length : ok = true) (code : Nat)
    (act : Device → Device) :
    (s.on fun d => d.request ⟨code, false, true⟩ p ok act) = .next (s.put (act s.dev)) := by
  rw [on_eq_put, length, request_early takes]

theorem exec_status (takes : s.dev.takes p = true) :
    exec (.status p []) s = .next (s.put (s.dev.respond p 0x01 0x00 (s.dev.statusBytes p))) :=
  on_request_early takes rfl 0x01 fun d => d.respond p 0x01 0x00 (d.statusBytes p)

theorem exec_seek (takes : s.dev.takes p = true) (length : body.length = 3) :
    exec (.seek p body) s = .next (s.put (s.dev.seek p body)) :=
  on_request_early takes (by simp [length]) 0x02 (Device.seek p body)

theorem exec_read (takes : s.dev.takes p = true) : exec (.read p []) s = .next (s.put (s.dev.read p)) :=
  on_request_early takes rfl 0x03 (Device.read p)

end

/-! ### SEEK (R168) -/

section

variable {d : Device} {p : Fin 4} {name : TableName} {index : Nat} {body : List Byte}

theorem seekForbidden_iff : d.seekForbidden p name = true ↔ d.role p = some .tenant ∧ name = .check := by
  simp [Device.seekForbidden]

/-- R168: a SEEK within a table the port may name, whichever of its tests comes first (log 17). -/
theorem seekCode_ok (within : index < tableSize name) (may : ¬(d.role p = some .tenant ∧ name = .check)) :
    d.seekCode p name index = 0x00 := by
  rw [← seekForbidden_iff, Bool.not_eq_true] at may
  simp [Device.seekCode, within, may, rcOk]

theorem seekCode_beyond (beyond : tableSize name ≤ index) (may : ¬(d.role p = some .tenant ∧ name = .check)) :
    d.seekCode p name index = 0x11 := by
  rw [← seekForbidden_iff, Bool.not_eq_true] at may
  simp [Device.seekCode, Nat.not_lt.mpr beyond, may, rcBadArgument]

theorem seekCode_forbidden (within : index < tableSize name) (forbidden : d.role p = some .tenant ∧ name = .check) :
    d.seekCode p name index = 0x12 := by
  rw [← seekForbidden_iff] at forbidden
  simp [Device.seekCode, within, forbidden, rcNotPermitted]

theorem seek_sets (named : tableNameTable[byteAt body 0]? = some name)
    (passes : d.seekCode p name (fieldAt body 1 2) = 0x00) : d.seek p body =
      (d.port p fun x => { x with table := name, index := fieldAt body 1 2 }).respond p 0x02 0x00 [] := by
  simp [Device.seek, named, passes, rcOk]

theorem seek_refused {rc : Nat} (named : tableNameTable[byteAt body 0]? = some name)
    (refused : d.seekCode p name (fieldAt body 1 2) = rc) (error : rc ≠ 0x00) :
    d.seek p body = d.respond p 0x02 rc [] := by
  simp [Device.seek, named, refused, error, rcOk]

end

/-! ### READ (R169, R174) -/

section

variable {d : Device} {p : Fin 4}

theorem overlaid_iff : d.overlaid p = true ↔
    d.check.isSome = true ∧ d.isLine p = true ∧ (d.ports.get p).cleared = false := by
  simp [Device.overlaid, and_assoc, and_left_comm]

/-- R174: the check report stands in for the record while it is owed to the port. -/
theorem read_overlaid {r : CheckReport} (present : d.check = some r) (overlaid : d.overlaid p = true) :
    d.read p = d.respond p 0x03 0x00 (envelope (d.ports.get p).table (d.ports.get p).index 4 ++ r.bytes) := by
  simp [Device.read, Device.readBody, overlaid, present, rcOk]

/-- R169: the record at the cursor, which moves on by one. -/
theorem read_record {marking : Nat} {fields : List Byte} (plain : d.overlaid p = false)
    (record : d.recordAt p (d.ports.get p).table (d.ports.get p).index = some (marking, fields)) :
    d.read p = (d.port p fun x => { x with index := x.index + 1 }).respond p 0x03 0x00
      (envelope (d.ports.get p).table (d.ports.get p).index marking ++ fields) := by
  simp [Device.read, Device.readBody, plain, record, rcOk]

/-- R169: past the last record, END, and the cursor stays. -/
theorem read_end (plain : d.overlaid p = false)
    (past : d.recordAt p (d.ports.get p).table (d.ports.get p).index = none) :
    d.read p = d.respond p 0x03 0x00 (envelope (d.ports.get p).table (d.ports.get p).index 3) := by
  simp [Device.read, Device.readBody, plain, past, rcOk]

end

/-! ### The records as a port sees them (R14, R66, R101, R131) -/

section

variable (d : Device) (p : Fin 4)

/-- R14: a port sees a circuit in full unless it is a TENANT that does not own it. -/
theorem sees_iff (i : Fin 256) : d.sees p i = true ↔
    d.role p ≠ some .tenant ∨ ∃ c, d.circuit i = some c ∧ c.owner = .port p := by
  cases held : d.circuit i <;> simp [Device.sees, Device.readsAll, held]

theorem recordAt_circuits (i : Fin 256) : d.recordAt p .circuits i.val = some (d.circuitRecord p i) := dif_pos i.isLt

theorem recordAt_windows (w : Fin 16) : d.recordAt p .windows w.val = some (d.windowRecord p w) := dif_pos w.isLt

theorem recordAt_runs (slot : Fin 32) : d.recordAt p .runs slot.val = some (d.runRecord p slot) := dif_pos slot.isLt

variable {d} {p}

/-- R14: a circuit entry shows that it is free, its record, or that it is foreign. -/
theorem circuitRecord_eq {i : Fin 256} : (d.circuit i = none → d.circuitRecord p i = (1, [])) ∧
    ∀ c, d.circuit i = some c → (d.sees p i = true → d.circuitRecord p i = (0, c.bytes)) ∧
      (¬d.sees p i = true → d.circuitRecord p i = (2, [])) := by
  constructor
  · intro free
    simp only [Device.circuitRecord, free]
  · intro c held
    simp only [Device.circuitRecord, held]
    exact ⟨fun sees => if_pos sees, fun foreign => if_neg foreign⟩

/-- R131: a run slot shows that it is free, its record, or role and phase of a foreign run. -/
theorem runRecord_eq {slot : Fin 32} : (d.runs.get slot = none → d.runRecord p slot = (1, [])) ∧
    ∀ r, d.runs.get slot = some r → (d.sees p r.circuit = true → d.runRecord p slot = (0, d.runBytes slot r)) ∧
      (¬d.sees p r.circuit = true → d.runRecord p slot =
        (2, [BitVec.ofNat 8 (codeIn nodeRoleTable r.role), BitVec.ofNat 8 (codeIn phaseTable r.phase)])) := by
  constructor
  · intro free
    simp only [Device.runRecord, free]
  · intro r held
    simp only [Device.runRecord, held]
    exact ⟨fun sees => if_pos sees, fun foreign => if_neg foreign⟩

/-- R101: a place of the queue shows nothing past its end, and else its entry, or kind and class of a foreign one. -/
theorem queueRecord_eq {m : Nat} : (d.grantOrder.length ≤ m → d.queueRecord p m = none) ∧
    ∀ e, d.grantOrder[m]? = some e → (d.sees p e.circuit = true → d.queueRecord p m = some (0, d.entryBytes e)) ∧
      (¬d.sees p e.circuit = true → d.queueRecord p m =
        some (2, [BitVec.ofNat 8 (codeIn kindTable e.kind), BitVec.ofNat 8 (codeIn qClassTable e.cls)])) := by
  constructor
  · intro past
    simp only [Device.queueRecord, List.getElem?_eq_none past, Option.map_none]
  · intro e held
    simp only [Device.queueRecord, held, Option.map_some]
    exact ⟨fun sees => congrArg some (if_pos sees), fun foreign => congrArg some (if_neg foreign)⟩

/-- R66: what every port reads alike of a window that is not EMPTY, before its sets. -/
def Window.sharedBytes (w : Window) : List Byte :=
  codeByte windowStateTable (some w.state) ++ be 1 w.creator.val ++ w.openAt.bytes ++ w.closeAt.bytes ++
    be 1 w.lead ++ be 1 w.verifyLimit ++ be 1 (listToBits w.degrees) ++ be 2 (listToBits w.taps) ++
    flagByte w.closing ++
    group 9 (w.baseliningSince.map fun s => wallBytes s.time ++ be 4 (instantUnits s.instant)) ++
    group 5 (w.verifyingSince.map wallBytes)

theorem windowBytes_eq (w : Window) : d.windowBytes p w =
    w.sharedBytes ++ d.setBytes p w.baselineSet ++ d.setBytes p w.members ++ d.setBytes p w.unresolved := rfl

theorem windowRecord_empty {w : Fin 16} (empty : d.windows.get w = none) : d.windowRecord p w = (0, [0]) := by
  simp only [Device.windowRecord, empty]
  rfl

theorem windowRecord_held {w : Fin 16} {y : Window} (held : d.windows.get w = some y) :
    d.windowRecord p w = (0, d.windowBytes p y) := by
  simp only [Device.windowRecord, held]

/-- R66: the indices a port is shown of a set are those it sees. -/
theorem mem_shown (l : List (Fin 256)) : ∀ i ∈ l, i ∈ l.filter (d.sees p) ↔ d.sees p i = true :=
  fun i member => by simp [member]

end

/-- Settles O7: STATUS by `exec_status`, SEEK by its code, READ by whether the overlay applies and what stands at the
cursor, and each record by what it shows to the port (`circuitRecord_eq`, `runRecord_eq`, `queueRecord_eq`,
`windowBytes_eq`). -/
theorem statusSeekAndReadAnswer : Obligations.StatusSeekAndReadAnswer := by
  refine ⟨fun s p takes => ⟨exec_status takes, fun body name length named => ?seek⟩, ?read⟩
  case seek =>
    rw [exec_seek takes length]
    refine ⟨fun within may => ?_, fun beyond may => ?_, fun within tenant check => ?_⟩
    · rw [seek_sets named (seekCode_ok within may)]
    · rw [seek_refused named (seekCode_beyond beyond may) (by decide)]
    · rw [seek_refused named (seekCode_forbidden within ⟨tenant, check⟩) (by decide)]
  case read =>
    rintro s p _ takes rfl
    refine ⟨fun r present line owed => ?_, fun noReport => ?_, fun sees hsees => ?_⟩
    · have overlaid : s.dev.overlaid p = true := overlaid_iff.mpr ⟨by simp [present], line, owed⟩
      rw [exec_read takes, read_overlaid present overlaid]
    · have plain : s.dev.overlaid p = false := Bool.eq_false_iff.mpr (mt overlaid_iff.mp noReport)
      refine ⟨fun marking fields record => ?_, fun past => ?_⟩
      · rw [exec_read takes, read_record plain record]
      · rw [exec_read takes, read_end plain past]
    · obtain rfl : sees = fun q i => s.dev.sees q i = true :=
        funext₂ fun q i => propext ((hsees q i).trans (sees_iff s.dev q i).symm)
      refine ⟨fun i => ?_, fun slot => ?_, fun m => queueRecord_eq, fun w => ⟨fun empty => ?_, fun y held => ?_⟩⟩
      · simp only [recordAt_circuits, Option.some.injEq]
        exact circuitRecord_eq
      · simp only [recordAt_runs, Option.some.injEq]
        exact runRecord_eq
      · rw [recordAt_windows, windowRecord_empty empty]
      · refine ⟨y.sharedBytes, fun q set hset baselines members unresolved => ?_⟩
        have shown (l : List (Fin 256)) (distinct : l.Nodup) : set l = s.dev.setBytes q l :=
          hset l _ List.filter_sublist (mem_shown l) distinct
        rw [recordAt_windows, windowRecord_held held, windowBytes_eq, shown _ baselines, shown _ members,
          shown _ unresolved]

end Sys2Proof.Machine

/-! SUPPORT. The configuration image: what its 164 bytes spell, and which of R177's tests it has to pass. -/

namespace Sys2Proof.Machine

/-! ### The items as bytes spell them (R177, R189) -/

section

variable (bs : List Byte)

/-- R189, R190: the length, the CRC-32 and the magic word are those of an image. -/
def imageSealed : Prop :=
  bs.length = 164 ∧ (crc32 (bs.take 160)).toNat = ofBe (bs.drop 160).reverse ∧ fieldAt bs 0 4 = magicWord

/-- R189: the notify defaults of a port, none where the mask has a bit that is no attention class. -/
def notifyDefaultAt (p : Fin 4) : Option NotifyDefault :=
  if byteAt bs (11 + 2 * p) < 128 then
    notifyModeTable[byteAt bs (10 + 2 * p)]?.map fun m => ⟨m, BitVec.ofNat 7 (byteAt bs (11 + 2 * p))⟩
  else none

/-- R189: the setting of a degree. -/
def degreeSettingAt (g : Fin 4) : Option DegreeSetting :=
  if byteAt bs (138 + 3 * g) < 2 ∧ fieldAt bs (139 + 3 * g) 2 ≤ 65534 then
    some ⟨byteAt bs (138 + 3 * g) = 1, fieldAt bs (139 + 3 * g) 2⟩ else none

/-- R189: the seven timings, whatever their ranges. -/
def timingsAt : Timings :=
  ⟨byteAt bs 150, byteAt bs 151, byteAt bs 152, fieldAt bs 153 2, byteAt bs 155, fieldAt bs 156 2, fieldAt bs 158 2⟩

end

section

variable {bs : List Byte}

theorem notifyDefaultAt_eq_some {p : Fin 4} {n : NotifyDefault} : notifyDefaultAt bs p = some n ↔
    byteAt bs (11 + 2 * p) < 128 ∧ notifyModeTable[byteAt bs (10 + 2 * p)]? = some n.mode ∧
      n.mask = BitVec.ofNat 7 (byteAt bs (11 + 2 * p)) := by
  obtain ⟨mode, mask⟩ := n
  rw [notifyDefaultAt, Option.ite_none_right_eq_some, Option.map_eq_some_iff]
  refine and_congr_right fun _ => ⟨?_, ?_⟩
  · rintro ⟨m, named, same⟩
    cases same
    exact ⟨named, rfl⟩
  · rintro ⟨named, rfl⟩
    exact ⟨mode, named, rfl⟩

theorem degreeSettingAt_eq_some {g : Fin 4} {x : DegreeSetting} : degreeSettingAt bs g = some x ↔
    byteAt bs (138 + 3 * g) < 2 ∧ x.enabled = decide (byteAt bs (138 + 3 * g) = 1) ∧
      x.expected = fieldAt bs (139 + 3 * g) 2 ∧ x.expected ≤ 65534 := by
  obtain ⟨enabled, expected⟩ := x
  rw [degreeSettingAt, Option.ite_none_right_eq_some, Option.some.injEq, DegreeSetting.mk.injEq]
  constructor
  · rintro ⟨⟨flag, within⟩, rfl, rfl⟩
    exact ⟨flag, rfl, rfl, within⟩
  · rintro ⟨flag, rfl, rfl, within⟩
    exact ⟨⟨flag, within⟩, rfl, rfl⟩

end

/-! ### The ranges (R24, R177) -/

theorem timings_ok_iff {t : Timings} : t.ok = true ↔
    (1 ≤ t.armBase ∧ t.armBase ≤ 10) ∧ (1 ≤ t.reportBase ∧ t.reportBase ≤ 10) ∧
    (5 ≤ t.outcomeWait ∧ t.outcomeWait ≤ 120) ∧ (30 ≤ t.requestInterval ∧ t.requestInterval ≤ 600) ∧
    (1 ≤ t.preemptTime ∧ t.preemptTime ≤ 30) ∧ (30 ≤ t.promotionAge ∧ t.promotionAge ≤ 1800) ∧
    (10 ≤ t.deferDelay ∧ t.deferDelay ≤ 600) := by
  simp only [Timings.ok, Bool.and_eq_true, inRange_iff, and_assoc]

theorem anyLine_iff {roles : Table Role 4} :
    roles.cells.any (· == .line) = true ↔ ∃ p, roles.get p = .line := by
  simp only [List.any_eq_true, beq_iff_eq, exists_eq_right, Table.mem_cells]

theorem lineTapsUnique_iff {taps : Table TapSettings 16} : lineTapsUnique taps = true ↔
    ∀ t u, t ≠ u → ((taps.get t).fn = .lineIn ∨ (taps.get t).fn = .lineOut) →
      (taps.get t).fn = (taps.get u).fn → (taps.get t).degree ≠ (taps.get u).degree := by
  simp only [lineTapsUnique, List.all_eq_true, List.mem_finRange, forall_const]
  refine forall₂_congr fun t u => ?_
  simp [or_iff_not_imp_left]

/-- R177: the tests of an image that name no single byte: node id, timings, a LINE port, and the line taps. -/
def Image.inRanges (im : Image) : Prop :=
  (1 ≤ im.settings.nodeId ∧ im.settings.nodeId ≤ 65534) ∧ im.settings.timings.ok = true ∧
    (∃ p, im.settings.roles.get p = .line) ∧ lineTapsUnique im.taps = true

theorem imageTests_iff {im : Image} : (inRange 1 im.settings.nodeId 65534 && im.settings.timings.ok &&
    im.settings.roles.cells.any (· == .line) && lineTapsUnique im.taps) = true ↔ im.inRanges := by
  simp only [Bool.and_eq_true, inRange_iff, anyLine_iff, Image.inRanges, and_assoc]

/-! ### The whole image (R177, R189, R190) -/

/-- R189: an image holds what the bytes spell, item by item. -/
structure Image.spelledBy (im : Image) (bs : List Byte) : Prop where
  nodeId : im.settings.nodeId = fieldAt bs 4 2
  roles : ∀ p : Fin 4, roleTable[byteAt bs (6 + p)]? = some (im.settings.roles.get p)
  notify : ∀ p, notifyDefaultAt bs p = some (im.settings.notify.get p)
  taps : ∀ t : Fin 16, tapSettingsAt bs (18 + 7 * t) = some (im.taps.get t)
  lines : ∀ l : Fin 8, lineFnTable[byteAt bs (130 + l)]? = some (im.settings.lines.get l)
  degrees : ∀ g, degreeSettingAt bs g = some (im.settings.degrees.get g)
  timings : im.settings.timings = timingsAt bs

/-- R177: bytes are a valid image exactly where they are sealed as one and spell items in their ranges. -/
theorem parseImage_eq_some {bs : List Byte} {im : Image} :
    parseImage bs = some im ↔ imageSealed bs ∧ im.spelledBy bs ∧ im.inRanges := by
  unfold parseImage imageSealed
  split
  case isTrue short => simp [short]
  split
  case isTrue damaged => simp [damaged]
  split
  case isTrue unmarked => simp [unmarked]
  next length crc magic =>
  rw [not_not] at length crc magic
  simp only [Option.bind_eq_bind, Option.bind_eq_some_iff, readTable_eq_some]
  constructor
  · rintro ⟨roles, hroles, notify, hnotify, taps, htaps, lines, hlines, degrees, hdegrees, passes⟩
    obtain ⟨tests, whole⟩ := Option.ite_none_right_eq_some.mp passes
    cases whole
    exact ⟨⟨length, crc, magic⟩, ⟨rfl, hroles, hnotify, htaps, hlines, hdegrees, rfl⟩, imageTests_iff.mp tests⟩
  · obtain ⟨⟨nodeId, roles, notify, lines, degrees, timings⟩, taps⟩ := im
    rintro ⟨-, ⟨hnode, hroles, hnotify, htaps, hlines, hdegrees, htimings⟩, inRanges⟩
    cases hnode
    cases htimings
    exact ⟨roles, hroles, notify, hnotify, taps, htaps, lines, hlines, degrees, hdegrees,
      if_pos (imageTests_iff.mpr inRanges)⟩

end Sys2Proof.Machine

/-! SUPPORT. The image applied, by CONFIGURE and at the end of the load. -/

namespace Sys2Proof.Machine

/-! ### The application (R179) -/

/-- R160, R165, R179: the context of a port at the application, by the role the image gives it. -/
theorem portConfigured_eq (role : Role) (n : NotifyDefault) (x : PortCtx) : x.configured role n =
    if role = .off then { PortCtx.reset with mode := n.mode, mask := n.mask, shifted := x.shifted }
    else { x with mode := n.mode, mask := n.mask, pulse := none } := by
  unfold PortCtx.configured
  split
  · rfl
  · rfl

section

variable (d : Device) (im : Image)

theorem applyImage_port (p : Fin 4) : (d.applyImage im).ports.get p =
    (d.ports.get p).configured (im.settings.roles.get p) (im.settings.notify.get p) := Table.get_mapIdx ..

theorem applyImage_tap (t : Fin 16) :
    (d.applyImage im).taps.get t = { d.taps.get t with settings := im.taps.get t } := Table.get_mapIdx ..

theorem applyImage_link (g : Fin 4) : (d.applyImage im).links.get g =
    (d.links.get g).configured d.now im.settings.nodeId g (im.settings.degrees.get g).enabled := Table.get_mapIdx ..

/-- R45: some line is PPS-IN under the image in force. -/
theorem ppsAssigned_iff {g : Settings} {d : Device} (running : d.running = some g) :
    d.ppsAssigned = true ↔ ∃ l, g.lines.get l = .ppsIn := by
  simp [Device.ppsAssigned, Device.lineFn, running]

/-- R45, R179: PPS supervision starts where the image has a line PPS-IN, and the clock is otherwise as it was. -/
theorem applyImage_clock_eq : (d.applyImage im).clock = { d.clock with
    ppsDeadline := if ∃ l, im.settings.lines.get l = .ppsIn then some (d.now + 2000) else none } :=
  congrArg (fun deadline => { d.clock with ppsDeadline := deadline })
    (if_congr (ppsAssigned_iff (d := { d with running := some im.settings }) rfl) rfl rfl)

/-- R165: the ports that the image does not make OFF take part in transactions. -/
theorem applyImage_served (p : Fin 4) :
    (d.applyImage im).served p = true ↔ im.settings.roles.get p ≠ .off := by
  have role : (d.applyImage im).role p = some (im.settings.roles.get p) := rfl
  simp [Device.served, role]

/-- R179: the answer to a CONFIGURE that was applied is discarded where the image makes the port OFF. -/
theorem applyImage_respondUnlessOff (p : Fin 4) (code : Nat) : (d.applyImage im).respondUnlessOff p code =
    if im.settings.roles.get p = .off then d.applyImage im else (d.applyImage im).respond p code 0x00 [] := by
  unfold Device.respondUnlessOff
  by_cases off : im.settings.roles.get p = .off
  · rw [if_pos off, if_neg fun served => (applyImage_served d im p).mp served off]
  · rw [if_neg off, if_pos ((applyImage_served d im p).mpr off)]
    rfl

end

/-! ### CONFIGURE (R179) -/

theorem exec_configure {s : State} {p : Fin 4} {body : List Byte} (takes : s.dev.takes p = true)
    (length : body.length = 164) : exec (.configure p body) s = .next (s.put (s.dev.configure p body)) :=
  on_request_early takes (by simp [length]) 0x38 (Device.configure p body)

section

variable {d : Device} {body : List Byte} (p : Fin 4)

theorem configure_again (configured : d.configured = true) : d.configure p body = d.respond p 0x38 0x17 [] :=
  if_pos configured

theorem configure_invalid (unconfigured : d.configured = false) (invalid : parseImage body = none) :
    d.configure p body = d.respond p 0x38 0x11 [] := by
  simp [Device.configure, unconfigured, invalid, rcBadArgument]

theorem configure_valid {im : Image} (unconfigured : d.configured = false) (valid : parseImage body = some im) :
    d.configure p body = if im.settings.roles.get p = .off then d.applyImage im
      else (d.applyImage im).respond p 0x38 0x00 [] := by
  simp only [Device.configure, unconfigured, Bool.false_eq_true, if_false, valid, applyImage_respondUnlessOff]

end

/-! ### The end of a load (R178) -/

section

variable {d : Device} {bytes : Option (List Byte)}

/-- R178, R180: what the load reads, told by what the EEPROM holds where it answers. -/
theorem imageRead_eq {read : Option (List Byte)} (silent : bytes = none → read = none)
    (outside : bytes.isSome = true → d.eeprom = .fromOutside → read = bytes)
    (stored : ∀ bs, bytes.isSome = true → d.eeprom = .stored bs → read = some bs)
    (spoiled : bytes.isSome = true → d.eeprom = .spoiled → read = none) : d.imageRead bytes = read := by
  cases bytes with
  | none => rw [silent rfl]; rfl
  | some bs =>
    cases held : d.eeprom with
    | fromOutside => rw [outside rfl held]; simp only [Device.imageRead, held]
    | stored kept => rw [stored kept rfl held]; simp only [Device.imageRead, held]
    | spoiled => rw [spoiled rfl held]; simp only [Device.imageRead, held]

theorem loadEnds_discarded (idle : d.loading = false) : d.loadEnds bytes = d := by
  simp [Device.loadEnds, idle]

theorem loadEnds_invalid (loading : d.loading = true) (invalid : (d.imageRead bytes).bind parseImage = none) :
    d.loadEnds bytes = { d with loading := false } := by
  simp [Device.loadEnds, loading, invalid]

theorem loadEnds_valid {im : Image} (loading : d.loading = true)
    (valid : (d.imageRead bytes).bind parseImage = some im) : d.loadEnds bytes = d.applyImage im := by
  simp [Device.loadEnds, loading, valid]

end

theorem exec_loadEnd {s : State} (live : s.dev.rst = false) (bytes : Option (List Byte)) :
    exec (.loadEnd bytes) s = .next (s.put (s.dev.loadEnds bytes)) := on_unlessReset live _

/-- Settles O30: the tests by `parseImage_eq_some`, the application field by field by the `applyImage_` lemmas, and its
two carriers by the cases of `configure` and of `loadEnds`. -/
theorem imageIsAppliedWholeOrNotAtAll : Obligations.ImageIsAppliedWholeOrNotAtAll := by
  refine ⟨?tests, fun s applied happlied => ?carried⟩
  case tests =>
    rintro bs im _ rfl
    rw [parseImage_eq_some]
    constructor
    · rintro ⟨⟨length, crc, magic⟩, ⟨node, roles, notify, taps, lines, degrees, timings⟩,
        ⟨low, high⟩, ok, line, unique⟩
      obtain ⟨arm, report, outcome, request, preempt, promote, defer⟩ := timings_ok_iff.mp ok
      refine ⟨length, crc, magic, node, low, high, fun p => ?_, taps, lines,
        fun g => degreeSettingAt_eq_some.mp (degrees g), timings, arm, report, outcome, request, preempt, promote,
        defer, line, lineTapsUnique_iff.mp unique⟩
      exact ⟨roles p, notifyDefaultAt_eq_some.mp (notify p)⟩
    · rintro ⟨length, crc, magic, node, low, high, ports, taps, lines, degrees, timings, arm, report, outcome,
        request, preempt, promote, defer, line, unique⟩
      refine ⟨⟨length, crc, magic⟩, ⟨node, fun p => (ports p).1,
        fun p => notifyDefaultAt_eq_some.mpr (ports p).2, taps, lines,
        fun g => degreeSettingAt_eq_some.mpr (degrees g), timings⟩, ⟨low, high⟩, ?_, line,
        lineTapsUnique_iff.mpr unique⟩
      exact timings_ok_iff.mpr ⟨arm, report, outcome, request, preempt, promote, defer⟩
  case carried =>
    have applies (im : Image) : applied im (s.dev.applyImage im) := by
      refine (happlied im _).mpr ⟨rfl, rfl, fun p => ?_, applyImage_tap s.dev im, applyImage_link s.dev im,
        applyImage_clock_eq s.dev im, rfl⟩
      rw [applyImage_port, portConfigured_eq]
    refine ⟨fun p body takes length => ?configure, fun live => ?load⟩
    case configure =>
      rw [exec_configure takes length]
      refine ⟨fun configured => ?_, fun unconfigured invalid => ?_, fun im unconfigured valid =>
        ⟨s.dev.applyImage im, applies im, ?_⟩⟩
      · rw [configure_again p configured]
      · rw [configure_invalid p unconfigured invalid]
      · rw [configure_valid p unconfigured valid]
    case load =>
      refine ⟨fun bytes idle => ?_, fun bytes loading read silent outside stored spoiled => ?_⟩
      · rw [exec_loadEnd live, loadEnds_discarded idle, put_self]
      rw [exec_loadEnd live, ← imageRead_eq silent outside stored spoiled]
      refine ⟨fun invalid => ?_, fun im valid => ⟨s.dev.applyImage im, applies im, ?_⟩⟩
      · rw [loadEnds_invalid loading invalid]
      · rw [loadEnds_valid loading valid]

end Sys2Proof.Machine

/-! SUPPORT. Stores and the node id: STORE-CONFIG, the end of a store, and SET-NODE-ID. -/

namespace Sys2Proof.Machine

section

variable {s : State} {p : Fin 4} {body : List Byte}

theorem exec_storeConfig (takes : s.dev.takesLine p = true) :
    exec (.storeConfig p []) s = .next (s.put (s.dev.storeConfig p)) :=
  on_request_line takes rfl 0x39 (Device.storeConfig p)

theorem exec_setNodeId (takes : s.dev.takesLine p = true) (length : body.length = 2) :
    exec (.setNodeId p body) s = .next (s.put (s.dev.setNodeId p body)) :=
  on_request_line takes (by simp [length]) 0x3A (Device.setNodeId p body)

theorem exec_storeEnd (live : s.dev.rst = false) (failed : Option (Fin 5)) :
    exec (.storeEnd failed) s = .next (s.put (s.dev.storeEnds failed)) := on_unlessReset live _

end

section

variable {d : Device} {p : Fin 4} {body : List Byte}

/-! ### STORE-CONFIG and its end (R180) -/

theorem storeConfig_again (storing : d.storing.isSome = true) : d.storeConfig p = d.respond p 0x39 0x17 [] :=
  if_pos storing

/-- R180: the image that a store writes is known by its settings and by the settings of its taps. -/
theorem imageToStore_eq {g : Settings} {im : Image}
    (settings : im.settings = { g with nodeId := d.pendingNode.getD g.nodeId })
    (taps : ∀ t, im.taps.get t = (d.taps.get t).settings) : d.imageToStore g = im := by
  obtain ⟨_, imTaps⟩ := im
  cases settings
  exact congrArg (Image.mk _) (Table.ext_get fun t => (Table.get_mapIdx ..).trans (taps t).symm)

theorem storeConfig_begins {g : Settings} (idle : d.storing = none) (running : d.running = some g) :
    d.storeConfig p = { d with storing := some ⟨p, imageBytes (d.imageToStore g)⟩, eeprom := .spoiled } := by
  simp [Device.storeConfig, idle, running]

theorem storeEnds_none (idle : d.storing = none) (failed : Option (Fin 5)) : d.storeEnds failed = d := by
  simp only [Device.storeEnds, idle]

theorem storeEnds_ok {st : Store} (storing : d.storing = some st) : d.storeEnds none =
    Device.respond { d with storing := none, eeprom := .stored st.bytes } st.port 0x39 0x00 [] := by
  simp only [Device.storeEnds, storing, rcOk]

theorem storeEnds_failed {st : Store} (storing : d.storing = some st) (stage : Fin 5) : d.storeEnds (some stage) =
    (Device.respond { d with storing := none, eeprom := .spoiled } st.port 0x39 0x1B []).raiseCheck
      (.storeFailed stage) := by
  simp only [Device.storeEnds, storing, rcStoreFailed]

/-! ### SET-NODE-ID (R181) -/

theorem setNodeId_sets (low : 1 ≤ fieldAt body 0 2) (high : fieldAt body 0 2 ≤ 65534) : d.setNodeId p body =
    Device.respond { d with pendingNode := some (fieldAt body 0 2) } p 0x3A 0x00 [] :=
  if_pos (inRange_iff.mpr ⟨low, high⟩)

theorem setNodeId_refuses (out : fieldAt body 0 2 = 0 ∨ 65534 < fieldAt body 0 2) :
    d.setNodeId p body = d.respond p 0x3A 0x11 [] :=
  if_neg fun within => by
    obtain ⟨low, high⟩ := inRange_iff.mp within
    omega

end

/-- Settles O31: STORE-CONFIG by whether a store runs, its end by whether a stage failed, SET-NODE-ID by the range. -/
theorem storeKeepsTheRunningImage : Obligations.StoreKeepsTheRunningImage := by
  refine fun s p => ⟨fun takes => ⟨fun storing => ?_, fun g im idle running settings taps => ?_, ?nodeId⟩,
    fun live => ⟨fun failed idle => ?_, fun st storing => ⟨?_, fun stage => ?_⟩⟩⟩
  case nodeId =>
    rintro body _ length rfl
    rw [exec_setNodeId takes length]
    refine ⟨fun low high => ?_, fun out => ?_⟩
    · rw [setNodeId_sets low high]
    · rw [setNodeId_refuses out]
  · rw [exec_storeConfig takes, storeConfig_again storing]
  · rw [exec_storeConfig takes, storeConfig_begins idle running, imageToStore_eq settings taps]
  · rw [exec_storeEnd live, storeEnds_none idle, put_self]
  · rw [exec_storeEnd live, storeEnds_ok storing]
  · rw [exec_storeEnd live, storeEnds_failed storing]

end Sys2Proof.Machine

/-! SUPPORT. The resets: what they leave, and what finds nothing to act on while the RST line is asserted. -/

namespace Sys2Proof.Machine

/-! ### While the RST line is asserted (R178) -/

/-- R178: in reset a command that acts outside reset alone leaves everything as it is. -/
theorem on_unlessReset_held {s : State} (held : s.dev.rst = true) (f : Device → Device) :
    s.on (unlessReset f) = .next s := by
  rw [on_eq_put, unlessReset, if_pos held, put_self]

section

variable {d : Device} (held : d.rst = true)
include held

theorem transaction_held (p : Fin 4) (n : Nat) : d.transaction p n = d := by simp [Device.transaction, held]

theorem request_held (r : CommandRule) (p : Fin 4) (ok : Bool) (act : Device → Device) :
    d.request r p ok act = d := by simp [Device.request, held]

theorem undecoded_held (p : Fin 4) (bytes : List Byte) : d.undecoded p bytes = d := by
  simp [Device.undecoded, held]

theorem framesArrive_held (g : Fin 4) (bytes : List Byte) : Device.framesArrive g bytes d = d := by
  have stays (frame : List Byte) : unlessReset (Device.takeFrame g frame) d = d := if_pos held
  exact List.foldl_fixed' stays _

end

/-- R178: every message's command acts outside reset alone. -/
theorem exec_commandOf_held {s : State} (held : s.dev.rst = true) (g : Fin 4) (m : Message) :
    exec (commandOf g m) s = .next s := by
  cases m <;> exact on_unlessReset_held held _

/-! ### The resets (R43, R178, R181) -/

theorem exec_restart {s : State} {p : Fin 4} (takes : s.dev.takesLine p = true) :
    exec (.restart p []) s = .next (s.put s.dev.restart) := on_request_line takes rfl 0x3B Device.restart

theorem exec_rstReleased (s : State) : exec .rstReleased s = .next (s.put s.dev.releaseReset) := rfl

/-- Settles O32: RESTART, the RST line and power-on reset by the fields their definitions name, and what the RST line
holds off by the `_held` lemmas. -/
theorem resetsClearEveryBlock : Obligations.ResetsClearEveryBlock := by
  intro s fresh hfresh
  refine ⟨fun p takes => ?_, ?_, fun held => ?_, fun live => ?_, ?_, fun held p n => ⟨?_, ?commands, ?_⟩⟩
  · rw [exec_restart takes, hfresh]
    rfl
  · rw [hfresh]
    rfl
  · rw [exec_rstReleased, Device.releaseReset, if_pos held]
  · rw [exec_rstReleased, Device.releaseReset, live, if_neg Bool.false_ne_true, put_self]
  · rw [hfresh]
    rfl
  case commands =>
    intro x known body
    obtain ⟨act, request⟩ := execute_clientCommand x known
    rw [exec_clientCommand x known, request, request_held held, put_self]
  · exact congrArg (fun d => Host.Outcome.next (s.put d)) (transaction_held held p n)
  · refine ⟨fun bytes => ⟨?_, ?_⟩, exec_commandOf_held held p, fun _ _ => on_unlessReset_held held _⟩
    · rw [exec_undecodedRequest, undecoded_held held, put_self]
    · rw [exec_frameDiscarded, framesArrive_held held, put_self]

/-! ### The part after power-on reset (R178) -/

/-- Settles O3: each table holds one reset value everywhere, the rest is written in `State.reset`. -/
theorem resetLeavesEveryBlockAtItsResetValues : Obligations.ResetLeavesEveryBlockAtItsResetValues := by
  have port (p : Fin 4) : State.reset.dev.ports.get p = .reset := Table.get_all _ p
  have tap (t : Fin 16) : State.reset.dev.taps.get t = .reset := Table.get_all _ t
  have link (g : Fin 4) : State.reset.dev.links.get g = .reset := Table.get_all _ g
  refine ⟨_, rfl, rfl, rfl, rfl, rfl, fun p => ?ports, rfl, rfl, rfl, rfl, rfl, rfl, rfl, Table.get_all _,
    Table.get_all _, rfl, rfl, rfl, Table.get_all _, rfl, Table.get_all _, fun t => ?taps, fun g => ?links⟩
  case ports =>
    rw [port]
    exact ⟨rfl, rfl, rfl, rfl, rfl, rfl, rfl, rfl, rfl⟩
  case taps =>
    rw [tap]
    exact ⟨rfl, rfl, rfl, Table.get_all _⟩
  case links =>
    rw [link]
    exact ⟨rfl, rfl, rfl, rfl, rfl, rfl⟩

/-- Settles O60: no record and no entry, every link and the clock at their reset values. -/
theorem resetKeepsTheInvariants : Obligations.ResetKeepsTheInvariants :=
  ⟨empty_apart rfl, List.Pairwise.nil, reset_linksSound rfl rfl, powerOn_sound⟩

end Sys2Proof.Machine

/-! SUPPORT. Fields and the bytes that carry them: what is read from the bytes of a number, a code, a level, a run id, a
fault site and a hop result. -/

namespace Sys2Proof.Machine

/-! ### Numbers (R182) -/

@[simp] theorem length_be (n v : Nat) : (be n v).length = n := by
  induction n with
  | zero => rfl
  | succ n ih => rw [be, List.length_cons, ih]

theorem ofBe_concat (bs : List Byte) (b : Byte) : ofBe (bs ++ [b]) = ofBe bs * 256 + b.toNat :=
  List.foldl_concat _ _ _ _

theorem ofBe_cons (b : Byte) (bs : List Byte) : ofBe (b :: bs) = b.toNat * 256 ^ bs.length + ofBe bs := by
  induction bs using List.reverseRecOn with
  | nil => simp [ofBe]
  | append_singleton bs c ih =>
    rw [← List.cons_append, ofBe_concat, ih, ofBe_concat, List.length_append, List.length_singleton, pow_succ]
    ring

/-- R182: `n` bytes spell the number they were made from, as far as they hold it. -/
theorem ofBe_be (n v : Nat) : ofBe (be n v) = v % 256 ^ n := by
  induction n with
  | zero => rw [pow_zero, Nat.mod_one, be, ofBe, List.foldl_nil]
  | succ n ih =>
    rw [be, ofBe_cons, length_be, ih, BitVec.toNat_ofNat, Nat.mod_pow_succ (b := 256), Nat.add_comm,
      Nat.mul_comm (256 ^ n)]

/-! ### Fields of a body -/

@[simp] theorem byteAt_eq_fieldAt (bs : List Byte) (k : Nat) : byteAt bs k = fieldAt bs k 1 := by
  rw [byteAt, fieldAt, List.take_one, List.head?_drop, List.getD_eq_getElem?_getD]
  cases bs[k]? with
  | none => rfl
  | some b => exact (Nat.zero_add _).symm

/-- A field that ends before `b` begins is read from `a` alone. -/
@[simp] theorem fieldAt_append_left {a b : List Byte} {k n : Nat} (h : k + n ≤ a.length) :
    fieldAt (a ++ b) k n = fieldAt a k n := by
  rw [fieldAt, fieldAt, List.drop_append_of_le_length (by omega), List.take_append_of_le_length (by simp; omega)]

/-- A field that begins after `a` is read from `b` alone. -/
@[simp] theorem fieldAt_append_right {a b : List Byte} {k n : Nat} (h : a.length ≤ k) :
    fieldAt (a ++ b) k n = fieldAt b (k - a.length) n := by
  rw [fieldAt, fieldAt, List.drop_append, List.drop_eq_nil_of_le h, List.nil_append]

theorem fieldAt_be {n v : Nat} (h : v < 256 ^ n) : fieldAt (be n v) 0 n = v := by
  rw [fieldAt, List.drop_zero, List.take_of_length_le (length_be n v).le, ofBe_be, Nat.mod_eq_of_lt h]

theorem byte_eq_be (v : Nat) : [BitVec.ofNat 8 v] = be 1 v := by simp [be]

/-! ### Codes (R182, R186) -/

section

variable {α : Type} [BEq α] {l : List α} {a : α}

@[simp] theorem length_codeByte : (codeByte l a).length = 1 := by rw [codeByte, List.length_singleton]

/-- R182: the value at its code is the value. -/
theorem getElem?_codeByte [LawfulBEq α] (short : l.length ≤ 256) (listed : a ∈ l) :
    l[fieldAt (codeByte l a) 0 1]? = some a := by
  have code : codeIn l a < 256 := (List.idxOf_lt_length_of_mem listed).trans_le short
  rw [codeByte, byte_eq_be, fieldAt_be code, codeIn, List.getElem?_idxOf listed]

end

@[simp] theorem kind_codeByte (k : Kind) : kindTable[fieldAt (codeByte kindTable k) 0 1]? = some k :=
  getElem?_codeByte (by decide) (by cases k <;> decide)

@[simp] theorem runClass_codeByte (c : RunClass) : runClassTable[fieldAt (codeByte runClassTable c) 0 1]? = some c :=
  getElem?_codeByte (by decide) (by cases c <;> decide)

@[simp] theorem verdict_codeByte (v : Verdict) : verdictTable[fieldAt (codeByte verdictTable v) 0 1]? = some v :=
  getElem?_codeByte (by decide) (by cases v <;> decide)

@[simp] theorem reason_codeByte (r : Reason) : reasonTable[fieldAt (codeByte reasonTable r) 0 1]? = some r :=
  getElem?_codeByte (by decide) (by cases r <;> decide)

@[simp] theorem sighting_codeByte (x : Sighting) : sightingTable[fieldAt (codeByte sightingTable x) 0 1]? = some x :=
  getElem?_codeByte (by decide) (by cases x <;> decide)

@[simp] theorem lightClass_codeByte (c : LightClass) :
    lightClassTable[fieldAt (codeByte lightClassTable c) 0 1]? = some c :=
  getElem?_codeByte (by decide) (by cases c <;> decide)

@[simp] theorem hopVerdict_codeByte (v : HopVerdict) :
    hopVerdictTable[fieldAt (codeByte hopVerdictTable v) 0 1]? = some v :=
  getElem?_codeByte (by decide) (by cases v <;> decide)

/-! ### Optional fields, levels and run ids (R103, R182, R184) -/

@[simp] theorem length_optByte (o : Option Nat) : (optByte o).length = 1 := by rw [optByte, List.length_singleton]

theorem fieldAt_optByte {o : Option Nat} (h : o.all (· < 255) = true) : fieldAt (optByte o) 0 1 = o.getD 255 := by
  rw [optByte, byte_eq_be]
  refine fieldAt_be ?_
  cases o with
  | none => decide
  | some v => exact (of_decide_eq_true h).trans (by decide)

@[simp] theorem length_levelBytes (o : Option Int) : (levelBytes o).length = 2 := by
  cases o with
  | none => rfl
  | some v => exact length_be 2 _

/-- R184: the level read from its two bytes; the smallest number of two bytes marks an absent one and is no level. -/
theorem levelOf_levelBytes {o : Option Int} (h : levelOk o = true) : levelOf (fieldAt (levelBytes o) 0 2) = o := by
  cases o with
  | none => decide
  | some v =>
    have range : -32768 < v ∧ v < 32768 := by simpa [levelOk] using h
    rw [levelBytes, beInt, fieldAt_be (by omega), levelOf, signed]
    split
    case isTrue marking => omega
    split
    case isTrue => congr 1; omega
    case isFalse => congr 1; omega

@[simp] theorem length_runIdBytes (r : RunId) : (runIdBytes r).length = 4 := by
  rw [runIdBytes, List.length_append, length_be, length_be]

theorem runId_wf_iff {r : RunId} : r.wf = true ↔ r.node < 256 ^ 2 ∧ r.number < 256 ^ 2 := by
  simp [RunId.wf]

theorem runIdAt_runIdBytes {r : RunId} (h : r.wf = true) : runIdAt (runIdBytes r) 0 = r := by
  obtain ⟨node, number⟩ := runId_wf_iff.mp h
  rw [runIdAt, runIdBytes, fieldAt_append_left (length_be 2 _).ge, fieldAt_be node,
    fieldAt_append_right (length_be 2 _).le, length_be, fieldAt_be number]

@[simp] theorem runIdAt_append_left {a b : List Byte} {k : Nat} (h : k + 4 ≤ a.length) :
    runIdAt (a ++ b) k = runIdAt a k := by
  rw [runIdAt, runIdAt, fieldAt_append_left (by omega), fieldAt_append_left (by omega)]

@[simp] theorem runIdAt_append_right {a b : List Byte} {k : Nat} (h : a.length ≤ k) :
    runIdAt (a ++ b) k = runIdAt b (k - a.length) := by
  rw [runIdAt, runIdAt, fieldAt_append_right h, fieldAt_append_right (by omega), Nat.sub_add_comm h]

/-! ### Fault sites (R139 to R141, R187) -/

@[simp] theorem siteOf_siteCode (site : Option FaultSite) : siteOf (siteCode site) (siteDetail site) = some site := by
  cases site with
  | none => rfl
  | some place =>
    cases place with
    | add => rfl
    | span => rfl
    | node => rfl
    | stray tap => rfl
    | peer reason => cases reason <;> rfl

theorem siteCode_lt (site : Option FaultSite) : siteCode site < 256 := by
  cases site with
  | none => decide
  | some place =>
    cases place with
    | add => decide
    | span => decide
    | node => decide
    | stray tap => exact (by decide : 3 < 256)
    | peer reason => exact (by decide : 4 < 256)

theorem siteDetail_lt {site : Option FaultSite} (h : site.all FaultSite.wf = true) : siteDetail site < 256 := by
  cases site with
  | none => decide
  | some place =>
    cases place with
    | add => decide
    | span => decide
    | node => decide
    | stray tap => exact of_decide_eq_true h
    | peer reason => cases reason <;> decide

theorem faultHop_byte {o : Option Nat} (h : o.all (· < 16) = true) : o.all (· < 255) = true := by
  cases o with
  | none => rfl
  | some hop => exact decide_eq_true ((of_decide_eq_true h).trans (by decide))

/-- R187: FFh marks the absent fault hop. -/
theorem faultHopOf_getD {o : Option Nat} (h : o.all (· < 16) = true) : faultHopOf (o.getD 255) = some o := by
  cases o with
  | none => rfl
  | some hop => exact if_pos (of_decide_eq_true h)

/-! ### Hop results (R185) -/

@[simp] theorem length_hopBytes (h : HopResult) : (hopBytes h).length = 12 := by
  simp [hopBytes]

theorem hopResult_wf_iff {h : HopResult} : h.wf = true ↔ h.hop < 16 ∧ h.node < 256 ^ 2 ∧
    levelOk h.inLevel = true ∧ levelOk h.outLevel = true ∧ h.stray.all (· < 255) = true := by
  simp only [HopResult.wf, Bool.and_eq_true, decide_eq_true_eq, and_assoc, Nat.reducePow]

/-- A hop result is read from the bytes that begin at its place. -/
theorem hopAt_append_right (a b : List Byte) : hopAt (a ++ b) a.length = hopAt b 0 := by
  have field (k n : Nat) : fieldAt (a ++ b) (a.length + k) n = fieldAt b k n := by
    rw [fieldAt_append_right (Nat.le_add_right _ _), Nat.add_sub_cancel_left]
  have first (n : Nat) : fieldAt (a ++ b) a.length n = fieldAt b 0 n := field 0 n
  simp only [hopAt, byteAt_eq_fieldAt, field, first, Nat.zero_add]

/-- R185: the hop result read from its twelve bytes. -/
theorem hopAt_hopBytes {h : HopResult} (wf : h.wf = true) (rest : List Byte) :
    hopAt (hopBytes h ++ rest) 0 = some h := by
  obtain ⟨hop, node, inLevel, outLevel, stray⟩ := hopResult_wf_iff.mp wf
  have hopFits : h.hop < 256 ^ 1 := hop.trans (by decide)
  have absent : (if h.stray.getD 255 = 255 then none else some (h.stray.getD 255)) = h.stray := by
    cases e : h.stray with
    | none => rfl
    | some t =>
      rw [e] at stray
      exact if_neg (of_decide_eq_true stray).ne
  simp [hopAt, hopBytes, Nat.not_le.mpr hop, fieldAt_be hopFits, fieldAt_be node, levelOf_levelBytes inLevel,
    levelOf_levelBytes outLevel, fieldAt_optByte stray, absent]

/-! ### Hop lists (R185) -/

theorem hopListFlags_eq_be (l : HopList) : hopListFlags l = be 1 (l.hops.length + if l.truncated then 128 else 0) :=
  byte_eq_be _

@[simp] theorem length_hopListBytes (l : HopList) : (hopListBytes l).length = 1 + 12 * l.hops.length := by
  simp [hopListBytes, hopListFlags_eq_be, Nat.mul_comm]

/-- R185: the flags byte of a hop list of at most 31 results gives their number and whether it was truncated. -/
theorem hopListBytes_flags {l : HopList} (short : l.hops.length < 32) :
    fieldAt (hopListBytes l) 0 1 % 32 = l.hops.length ∧ (fieldAt (hopListBytes l) 0 1).testBit 7 = l.truncated := by
  rw [hopListBytes, hopListFlags_eq_be, fieldAt_append_left (length_be 1 _).ge]
  cases h : l.truncated with
  | true =>
    rw [if_pos rfl, fieldAt_be (by omega), Nat.testBit_eq_decide_div_mod_eq, decide_eq_true_eq]
    omega
  | false =>
    rw [if_neg Bool.false_ne_true, fieldAt_be (by omega), Nat.testBit_eq_decide_div_mod_eq, decide_eq_false_iff_not]
    omega

/-- R185: the results of a hop list, read one after the other from where the first begins. -/
theorem hopsAt_flatMap_hopBytes {hops : List HopResult} (wf : ∀ h ∈ hops, h.wf = true) (before : List Byte) :
    hopsAt (before ++ hops.flatMap hopBytes) before.length hops.length = some hops := by
  induction hops generalizing before with
  | nil => rfl
  | cons h hops ih =>
    have first : hopAt (before ++ (h :: hops).flatMap hopBytes) before.length = some h := by
      rw [hopAt_append_right, List.flatMap_cons, hopAt_hopBytes (wf h List.mem_cons_self)]
    have others : hopsAt (before ++ (h :: hops).flatMap hopBytes) (before.length + 12) hops.length = some hops := by
      have next := ih (fun x hx => wf x (List.mem_cons_of_mem h hx)) (before ++ hopBytes h)
      rwa [List.append_assoc, List.length_append, length_hopBytes] at next
    rw [List.length_cons, hopsAt, first, Option.bind_eq_bind, Option.bind_some, others]
    rfl

/-- R185: the results of a hop list begin after its flags byte. -/
theorem hopsAt_hopListBytes {l : HopList} (wf : ∀ h ∈ l.hops, h.wf = true) (before : List Byte) :
    hopsAt (before ++ hopListBytes l) (before.length + 1) l.hops.length = some l.hops := by
  have results := hopsAt_flatMap_hopBytes wf (before ++ hopListFlags l)
  rwa [List.append_assoc, List.length_append, hopListFlags_eq_be, length_be, ← hopListFlags_eq_be] at results

end Sys2Proof.Machine

/-! SUPPORT. Frames on a link: the escapes taken off, the frame valid, and the HELLO or message it spells. -/

namespace Sys2Proof.Machine

/-! ### A frame is valid as it arrives (R148, R187) -/

/-- R187: the receiver takes an escaped byte for the byte it stands for. -/
theorem unescape_escapeByte (b : Byte) (rest : List Byte) :
    unescape false (escapeByte b ++ rest) = b :: unescape false rest := by
  by_cases delimiter : b = 0x7E
  · subst delimiter
    rfl
  by_cases escape : b = 0x7D
  · subst escape
    rfl
  rw [escapeByte, if_neg (not_or.mpr ⟨delimiter, escape⟩), List.singleton_append, unescape, if_neg delimiter,
    if_neg Bool.false_ne_true, if_neg escape]

theorem unescape_flatMap_escapeByte (bs : List Byte) : unescape false (bs.flatMap escapeByte) = bs := by
  induction bs with
  | nil => rfl
  | cons b bs ih => rw [List.flatMap_cons, unescape_escapeByte, ih]

/-- R187: the bytes of a frame that its CRC-16 is taken over. -/
def checkedBytes (typ : Nat) (body : List Byte) : List Byte := be 1 typ ++ be 1 body.length ++ body

/-- R187: the bytes of a frame between its start delimiter and its end, before they are escaped. -/
def sealedBytes (typ : Nat) (body : List Byte) : List Byte :=
  checkedBytes typ body ++ be 2 (crc16 (checkedBytes typ body)).toNat

theorem wireBytes_eq (f : PeerFrame) :
    wireBytes f = 0x7E :: (sealedBytes (frameParts f).1 (frameParts f).2).flatMap escapeByte := rfl

theorem length_checkedBytes (typ : Nat) (body : List Byte) : (checkedBytes typ body).length = body.length + 2 := by
  rw [checkedBytes, List.length_append, List.length_append, length_be, length_be, Nat.add_comm]

section

variable {typ : Nat} {body : List Byte}

theorem sealedBytes_type (byte : typ < 256) : byteAt (sealedBytes typ body) 0 = typ := by
  simp [sealedBytes, checkedBytes, fieldAt_be (n := 1) byte]

theorem sealedBytes_length (byte : body.length < 256) : byteAt (sealedBytes typ body) 1 = body.length := by
  simp [sealedBytes, checkedBytes, fieldAt_be (n := 1) byte]

theorem sealedBytes_crc :
    fieldAt (sealedBytes typ body) (body.length + 2) 2 = (crc16 (checkedBytes typ body)).toNat := by
  rw [sealedBytes, fieldAt_append_right (length_checkedBytes typ body).le, length_checkedBytes, Nat.sub_self,
    fieldAt_be (crc16 _).isLt]

theorem sealedBytes_checked : (sealedBytes typ body).take (body.length + 2) = checkedBytes typ body :=
  List.take_left' (length_checkedBytes typ body)

theorem sealedBytes_body : ((sealedBytes typ body).drop 2).take body.length = body := by
  rw [sealedBytes, checkedBytes, List.append_assoc, List.drop_left' (by simp), List.take_left]

/-- R148, R187: a frame with a body of at most 200 bytes is valid, and carries its type and body. -/
theorem validFrame_escaped (byte : typ < 256) (short : body.length ≤ 200) :
    validFrame ((sealedBytes typ body).flatMap escapeByte) = some (typ, body) := by
  have whole : (sealedBytes typ body).length = body.length + 4 := by
    rw [sealedBytes, List.length_append, length_checkedBytes, length_be]
  simp only [validFrame, unescape_flatMap_escapeByte, sealedBytes_length (typ := typ) (short.trans_lt (by decide))]
  rw [if_neg (by omega), if_neg (by omega), sealedBytes_checked, sealedBytes_crc, if_neg (not_not.mpr rfl),
    sealedBytes_type byte, sealedBytes_body]

end

/-! ### What the type and body of each frame spell (R186, R187) -/

/-- R187: the type and body of a frame spell the frame. -/
def PeerFrame.ReadsBack (f : PeerFrame) : Prop := parseFrame (frameParts f).1 (frameParts f).2 = some f

theorem frameParts_type_lt (f : PeerFrame) : (frameParts f).1 < 256 := by
  cases f with
  | hello => simp [frameParts]
  | message m => cases m <;> simp [frameParts]

theorem cidOk_iff {cid : Nat} : cidOk cid = true ↔ cid ≠ 0 ∧ cid < 256 ^ 3 := by
  simp [cidOk, Nat.pos_iff_ne_zero]

/-- R148: a frame whose type and body spell it survives the link. -/
theorem survives_of_readsBack {f : PeerFrame} (short : (frameParts f).2.length ≤ 200) (spells : f.ReadsBack) :
    ∃ typ body, validFrame ((wireBytes f).drop 1) = some (typ, body) ∧ parseFrame typ body = some f :=
  ⟨(frameParts f).1, (frameParts f).2, by
    rw [wireBytes_eq, List.drop_one, List.tail_cons, validFrame_escaped (frameParts_type_lt f) short], spells⟩

theorem hello_readsBack {node : Nat} {degree : Fin 4} (h : node < 256 ^ 2) :
    (PeerFrame.hello node degree.val).ReadsBack := by
  simp [PeerFrame.ReadsBack, frameParts, parseFrame, fieldAt_be h, fieldAt_be (n := 1) (v := degree.val) (by omega)]

section

variable {cid : Nat} {run : RunId}

theorem announce_readsBack {kind : Kind} {hop n dwell : Nat}
    (wf : (Message.announce cid run kind hop n dwell).wf = true) :
    (PeerFrame.message (.announce cid run kind hop n dwell)).ReadsBack := by
  simp only [Message.wf, Bool.and_eq_true, decide_eq_true_eq, cidOk_iff] at wf
  obtain ⟨⟨⟨⟨⟨nonzero, fits⟩, runOk⟩, hopOk⟩, two, sixteen⟩, dwellOk⟩ := wf
  simp [PeerFrame.ReadsBack, frameParts, parseFrame, fieldAt_be fits, runIdAt_runIdBytes runOk, nonzero,
    fieldAt_be (n := 1) dwellOk, fieldAt_be (n := 1) (v := hop) (by omega), fieldAt_be (n := 1) (v := n) (by omega),
    hopOk, two, sixteen]

/-- R186: the three messages that carry a circuit id and a run id and nothing more. -/
theorem ids_readsBack (wf : (cidOk cid && run.wf) = true) :
    (PeerFrame.message (.armed cid run)).ReadsBack ∧ (PeerFrame.message (.stop cid run)).ReadsBack ∧
      (PeerFrame.message (.cancel cid run)).ReadsBack := by
  rw [Bool.and_eq_true, cidOk_iff] at wf
  obtain ⟨⟨nonzero, fits⟩, runOk⟩ := wf
  refine ⟨?_, ?_, ?_⟩ <;>
    simp [PeerFrame.ReadsBack, frameParts, parseFrame, fieldAt_be fits, runIdAt_runIdBytes runOk, nonzero]

theorem report_readsBack {truncated : Bool} {hops : List HopResult}
    (wf : (Message.report cid run truncated hops).wf = true) :
    (PeerFrame.message (.report cid run truncated hops)).ReadsBack := by
  simp only [Message.wf, Bool.and_eq_true, decide_eq_true_eq, cidOk_iff, List.all_eq_true] at wf
  obtain ⟨⟨⟨⟨nonzero, fits⟩, runOk⟩, one, sixteen⟩, hopsOk⟩ := wf
  obtain ⟨count, bit⟩ := hopListBytes_flags (l := ⟨hops, truncated⟩) (sixteen.trans_lt (by decide))
  have results : hopsAt (be 3 cid ++ (runIdBytes run ++ hopListBytes ⟨hops, truncated⟩)) 8 hops.length =
      some hops := by
    have after := hopsAt_hopListBytes (l := ⟨hops, truncated⟩) hopsOk (be 3 cid ++ runIdBytes run)
    rwa [List.append_assoc, List.length_append, length_be, length_runIdBytes] at after
  simp [PeerFrame.ReadsBack, frameParts, parseFrame, fieldAt_be fits, runIdAt_runIdBytes runOk, nonzero, count, bit,
    results, one, sixteen, ← Nat.add_assoc]

theorem refuse_readsBack {hop : Nat} {reason : Reason} (wf : (Message.refuse cid run hop reason).wf = true) :
    (PeerFrame.message (.refuse cid run hop reason)).ReadsBack := by
  simp only [Message.wf, Bool.and_eq_true, decide_eq_true_eq, cidOk_iff] at wf
  obtain ⟨⟨⟨nonzero, fits⟩, runOk⟩, hopOk⟩ := wf
  simp [PeerFrame.ReadsBack, frameParts, parseFrame, fieldAt_be fits, runIdAt_runIdBytes runOk, nonzero,
    fieldAt_be (n := 1) (v := hop) (by omega), hopOk]

theorem outcome_readsBack {o : RunOutcome} (wf : (Message.outcome o).wf = true) :
    (PeerFrame.message (.outcome o)).ReadsBack := by
  simp only [Message.wf, RunOutcome.wf, Bool.and_eq_true, cidOk_iff] at wf
  obtain ⟨⟨⟨⟨nonzero, fits⟩, runOk⟩, hopOk⟩, siteOk⟩ := wf
  simp [PeerFrame.ReadsBack, frameParts, parseFrame, fieldAt_be fits, runIdAt_runIdBytes runOk, nonzero,
    fieldAt_optByte (faultHop_byte hopOk), faultHopOf_getD hopOk, fieldAt_be (n := 1) (siteCode_lt o.site),
    fieldAt_be (n := 1) (siteDetail_lt siteOk)]

theorem request_readsBack {kind : Kind} (wf : (Message.request cid kind).wf = true) :
    (PeerFrame.message (.request cid kind)).ReadsBack := by
  obtain ⟨nonzero, fits⟩ := cidOk_iff.mp wf
  simp [PeerFrame.ReadsBack, frameParts, parseFrame, fieldAt_be fits, nonzero]

end

theorem message_readsBack {m : Message} (wf : m.wf = true) : (PeerFrame.message m).ReadsBack := by
  cases m with
  | announce => exact announce_readsBack wf
  | armed => exact (ids_readsBack wf).1
  | stop => exact (ids_readsBack wf).2.1
  | report => exact report_readsBack wf
  | refuse => exact refuse_readsBack wf
  | cancel => exact (ids_readsBack wf).2.2
  | outcome => exact outcome_readsBack wf
  | request => exact request_readsBack wf

/-- R187: the longest body is that of a REPORT with 16 hop results, of 200 bytes. -/
theorem message_body_short {m : Message} (wf : m.wf = true) : (frameParts (.message m)).2.length ≤ 200 := by
  cases m with
  | report cid run truncated hops =>
    simp only [Message.wf, Bool.and_eq_true, decide_eq_true_eq] at wf
    obtain ⟨⟨-, -, sixteen⟩, -⟩ := wf
    have length : (frameParts (.message (.report cid run truncated hops))).2.length = 8 + 12 * hops.length := by
      simp [frameParts, ← Nat.add_assoc]
    omega
  | _ => simp [frameParts]

/-- Settles O55: a frame is valid by `validFrame_escaped`, and its type and body spell it by the `_readsBack` lemma of
each message. -/
theorem framesSurviveTheLink : Obligations.FramesSurviveTheLink :=
  ⟨fun _ wf => survives_of_readsBack (message_body_short wf) (message_readsBack wf),
    fun _ _ node => survives_of_readsBack (by simp [frameParts]) (hello_readsBack node)⟩

end Sys2Proof.Machine
